-- ==== Sys2Proof/Word.lean ====
section
/-!
DEFINITION. The word types of the PNGme chunk engine: a 32-bit register value (R7), a buffer byte, and four
consecutive bytes (the shape of the wire fields LENGTH, TYPE and CRC, R75).
-/

namespace Sys2Proof

/-- A 32-bit register value (R7, R21). Bit 0 is the least significant bit (R9). -/
abbrev Word := BitVec 32

/-- One byte of a buffer or of the wire (R37, R38). -/
abbrev Byte := BitVec 8

/-- Four consecutive bytes, `b0` at the lowest offset (R9, R51): a LENGTH, TYPE or CRC field of a chunk record, or
the four bytes of a tag register. -/
structure Quad where
  b0 : Byte
  b1 : Byte
  b2 : Byte
  b3 : Byte
deriving DecidableEq, Repr

end Sys2Proof
end

