-- ==== Sys2Proof/Machine/Bytes.lean ====
section
/-!
DEFINITION. Byte order (R11, R50, R51): the big-endian reading and writing of four bytes, and the PNG signature (R170).
-/

namespace Sys2Proof.Machine

/-- `be32` of R11: four bytes as a big-endian word, byte 0 in bits 31:24. -/
def be32 (q : Quad) : Word :=
  (q.b0.setWidth 32 <<< 24) ||| (q.b1.setWidth 32 <<< 16) ||| (q.b2.setWidth 32 <<< 8) ||| q.b3.setWidth 32

/-- `bytes_be32` of R11: a word as four bytes, most significant first. It gives the four bytes of a tag register
(R25, R51, R108). -/
def bytesBe32 (v : Word) : Quad :=
  { b0 := v.extractLsb' 24 8, b1 := v.extractLsb' 16 8, b2 := v.extractLsb' 8 8, b3 := v.extractLsb' 0 8 }

/-- The four bytes as a byte sequence, lowest offset first (R9). -/
def quadBytes (q : Quad) : List Byte := [q.b0, q.b1, q.b2, q.b3]

/-- SIG, the 8 signature bytes (R170). -/
def signature : List Byte := [0x89, 0x50, 0x4E, 0x47, 0x0D, 0x0A, 0x1A, 0x0A]

end Sys2Proof.Machine
end

