-- ==== Sys2Proof/Machine/Crc32.lean ====
section
/-!
DEFINITION. The CRC-32 function of the generator (R120 to R122), in the normative bitwise form of R121.
-/

namespace Sys2Proof.Machine

/-- POLY, the reflected IEEE polynomial (R121; the spec supplies the value from general knowledge, G1). -/
def crcPoly : Word := 0xEDB88320

/-- One of the eight shifts of `crc_step` (R121). -/
def crcBit (c : Word) : Word :=
  if c.getLsbD 0 then (c >>> 1) ^^^ crcPoly else c >>> 1

/-- `k` shifts. -/
def crcBits : Nat → Word → Word
  | 0, c => c
  | k + 1, c => crcBits k (crcBit c)

/-- `crc_step(c, b)` (R121): the byte enters at the low end, then eight shifts. -/
def crcStep (c : Word) (b : Byte) : Word := crcBits 8 (c ^^^ b.setWidth 32)

/-- `fold(c, bs)` (R124): `crc_step` over each byte in order. -/
def crcFold (c : Word) (bs : List Byte) : Word := bs.foldl crcStep c

/-- The initial value, all ones (R120, R122). -/
def crcInitial : Word := 0xFFFFFFFF

/-- `CRC32(bs)` (R122), with the final complement. -/
def crc32 (bs : List Byte) : Word := crcFold crcInitial bs ^^^ 0xFFFFFFFF

/-- `chunk_crc(t, p)` (R122): the checksum over the type bytes and then the payload; LENGTH is not covered. -/
def chunkCrc (t : Quad) (p : List Byte) : Word := crc32 (quadBytes t ++ p)

end Sys2Proof.Machine
end

