-- ==== Sys2Proof/Config.lean ====
section
/-!
DEFINITION. What an implementation fixes: the two buffer sizes (R6, D3). They are parameters of the model, so they
are data that every definition takes from the state it works on (log entry 1), and no step ever changes them.
And the one free value: when a pending command completes (R199, R262, I8). No result of a command is open.
-/

namespace Sys2Proof

/-- The named arguments of R6. -/
structure Config where
  /-- IBUF_SIZE, bytes in the input buffer -/
  ibufSize : Nat
  /-- OBUF_SIZE, bytes in the output buffer -/
  obufSize : Nat
deriving DecidableEq, Repr

/-- The constraints R6 puts on the two sizes. -/
abbrev Config.Wf (c : Config) : Prop :=
  12 ≤ c.ibufSize ∧ c.ibufSize ≤ 0xFFFFFFFF ∧ 8 ≤ c.obufSize ∧ c.obufSize ≤ 0xFFFFFFFF

/-- The sizes `State.reset` carries: 256 and 256, the convention of 95_test_vectors.md.
DESIGN CHOICE, unsafe (log entry 1): the spec leaves both OPEN, so no statement may rest on these two numbers. -/
def Config.vectors : Config := { ibufSize := 256, obufSize := 256 }

/-- The free value of the schedule (R199, R262; log entry 17): at the `n`-th choice of a run, how many moves the host makes
before the engine moves. It has no body, so what is proved holds whatever the delays are; each is a finite number, which is
the weak fairness of R262, and no bound on them holds. -/
opaque Config.completionDelay : Nat → Nat

end Sys2Proof
end

