-- ==== Sys2Proof/Syntax.lean ====
section
/-!
DEFINITION. The commands of PNGCE command set v1, one constructor per row of spec/opcode_table.json (R71).
No command has an immediate or a register field (R72), so no constructor has an argument.
-/

namespace Sys2Proof

/-- A command of the engine (R71). The families are the CRC generator, the flag decoder, the chunk framer and the
stream framer, in the table's order. -/
inductive Instr where
  | crcInit
  | crcFeed
  | tagConstruct
  | tagParse
  | chunkSet
  | chunkCrc
  | chunkSerialize
  | chunkParse
  | streamOpen
  | streamNext
  | sigEmit
deriving DecidableEq, Repr

end Sys2Proof
end

