-- ==== Sys2Proof/Decode.lean ====
section
/-!
DEFINITION. The command word (R70): its two fields, the opcode map (R71), decoding, which is total and rejects by
name (R73, R74), and the encoder, written from the same map.
A command is one 32-bit word written to CMD; it is not fetched from a memory (R64), so the decoder takes the word.
-/

namespace Sys2Proof

/-- Why a command word is not a command (R73, R74). Either way it completes with IllegalCommand. -/
inductive DecodeError where
  /-- bits 31:8 are not zero (R70) -/
  | mbzNonzero (mbz : BitVec 24)
  /-- the MBZ field is zero and OPC is not in the opcode map (R74) -/
  | reservedOpcode (opc : BitVec 8)
deriving DecidableEq, Repr

/-- The OPC field, bits 7:0 (R70). -/
def opcField (w : Word) : BitVec 8 := w.extractLsb' 0 8

/-- The MBZ field, bits 31:8 (R70). -/
def mbzField (w : Word) : BitVec 24 := w.extractLsb' 8 24

/-- The opcode map of R71. -/
def opcodeMap : List (BitVec 8 × Instr) :=
  [ (0x01, .crcInit), (0x02, .crcFeed),
    (0x10, .tagConstruct), (0x11, .tagParse),
    (0x20, .chunkSet), (0x21, .chunkCrc), (0x22, .chunkSerialize), (0x23, .chunkParse),
    (0x30, .streamOpen), (0x31, .streamNext), (0x32, .sigEmit) ]

/-- Decoding a command word (R73): the MBZ field first, then the opcode map. -/
def decode (w : Word) : Except DecodeError Instr :=
  if mbzField w ≠ 0 then .error (.mbzNonzero (mbzField w))
  else
    match opcodeMap.lookup (opcField w) with
    | some i => .ok i
    | none => .error (.reservedOpcode (opcField w))

/-- The command word of a command (R71, column "word"). -/
def encode : Instr → Word
  | .crcInit => 0x00000001
  | .crcFeed => 0x00000002
  | .tagConstruct => 0x00000010
  | .tagParse => 0x00000011
  | .chunkSet => 0x00000020
  | .chunkCrc => 0x00000021
  | .chunkSerialize => 0x00000022
  | .chunkParse => 0x00000023
  | .streamOpen => 0x00000030
  | .streamNext => 0x00000031
  | .sigEmit => 0x00000032

/-- A command word from `nbits` bits numbered as spec/opcode_table.json numbers them; the bits above are 0 (log entry 14). -/
def tableWord (nbits w : Nat) : Word := BitVec.ofNat 32 (w % 2 ^ nbits)

/-- The command the decoder reads from a table row's bits. -/
def decodeTableWord (nbits w : Nat) : Option Instr :=
  match decode (tableWord nbits w) with
  | .ok i => some i
  | .error _ => none

end Sys2Proof
end

