-- ==== Sys2Proof/Machine/Regs.lean ====
section
/-!
DEFINITION. The register map (R21): the 17 registers the host addresses, and their byte offsets.
-/

namespace Sys2Proof.Machine

/-- The registers of R21, by name. -/
inductive Reg where
  | cmd | status | argAddr | argLen | tagIn | tag | tagFlags | chType | chFlags | chPoff | chLen | chCrc | crcOut
  | outPtr | stCur | stEnd | stCount
deriving DecidableEq, Repr

/-- The byte offset of a register in REG (R21). -/
def regOffset : Reg → Nat
  | .cmd => 0x00
  | .status => 0x04
  | .argAddr => 0x08
  | .argLen => 0x0C
  | .tagIn => 0x10
  | .tag => 0x14
  | .tagFlags => 0x18
  | .chType => 0x1C
  | .chFlags => 0x20
  | .chPoff => 0x24
  | .chLen => 0x28
  | .chCrc => 0x2C
  | .crcOut => 0x30
  | .outPtr => 0x34
  | .stCur => 0x38
  | .stEnd => 0x3C
  | .stCount => 0x40

/-- Every register, in the map's order. -/
def allRegs : List Reg :=
  [.cmd, .status, .argAddr, .argLen, .tagIn, .tag, .tagFlags, .chType, .chFlags, .chPoff, .chLen, .chCrc, .crcOut,
   .outPtr, .stCur, .stEnd, .stCount]

/-- The register at an offset; none at a reserved offset (0x44 to 0xFC), at an offset that is not a multiple of 4 and
at one at or above 0x100 (R21, R54). -/
def regAt (off : Nat) : Option Reg := allRegs.find? (fun r => regOffset r == off)

end Sys2Proof.Machine
end

