-- ==== Sys2Proof/Machine/HostSyntax.lean ====
section
/-!
DEFINITION. The host's side as syntax: the transactions (R190), a host program over them with the conditional jump
that WAIT needs (R77, R78), the pseudo-instructions' expansions (R78), the two agents (R20), and what a read records (R77).
-/

namespace Sys2Proof.Machine

/-- A host transaction (R190). A register access carries its width in bits and any offset, since a wrong width or
offset is a model fault and not a thing the host cannot do (R54). A buffer access moves one byte (R55; log entry 10). -/
inductive Txn where
  | regWrite (width off : Nat) (v : Word)
  | regRead (width off : Nat)
  | ibufWrite (addr : Nat) (b : Byte)
  | ibufRead (addr : Nat)
  | obufRead (addr : Nat)
  | reset
deriving DecidableEq, Repr

/-- A line of a host program: a transaction, or the host's own control flow, which is no event of the block (R78). -/
inductive HostInstr where
  | txn (t : Txn)
  /-- go to line `target` if the last value read, masked, equals `value`; with mask 0 and value 0 and something read it
  is an unconditional jump. DESIGN CHOICE, safe (log entry 4): the form of the host's branch. -/
  | gotoIf (mask value : Word) (target : Nat)
deriving DecidableEq, Repr

/-- The two agents (R20). -/
inductive Agent where
  | host
  | engine
deriving DecidableEq, Repr

/-- What a read transaction hands to the host's program (R77, R201). -/
inductive Reading where
  | word (v : Word)
  | byte (b : Byte)
deriving DecidableEq, Repr

/-- The value a branch of the host tests. -/
def readingValue : Reading → Word
  | .word v => v
  | .byte b => b.setWidth 32

/-- `WR <REG>, v` (R77). -/
def hostWr (r : Reg) (v : Word) : HostInstr := .txn (.regWrite 32 (regOffset r) v)

/-- `RD <REG>` (R77). -/
def hostRd (r : Reg) : HostInstr := .txn (.regRead 32 (regOffset r))

/-- `CMD <MNEMONIC>` (R77): a write of the command's word to CMD. -/
def hostCmd (i : Instr) : HostInstr := hostWr .cmd (encode i)

/-- `WAIT` at line `pos` of a program (R78): read STATUS, and again from `pos` while bit 0 of the value read is 1.
Each poll is an RD, so its value is recorded as any other read's is; the end states of 95_test_vectors.md list the records
without the polls (DESIGN CHOICE, log entry 18). -/
def hostWait (pos : Nat) : List HostInstr := [hostRd .status, .gotoIf 1 1 pos]

/-- `EXEC <MNEMONIC>` at line `pos` (R78): CMD, then WAIT. -/
def hostExec (pos : Nat) (i : Instr) : List HostInstr := hostCmd i :: hostWait (pos + 1)

/-- `WBUF <addr>, <bytes>` (R78): one IbufWrite a byte, at increasing addresses. -/
def hostWbuf : Nat → List Byte → List HostInstr
  | _, [] => []
  | addr, b :: bs => .txn (.ibufWrite addr b) :: hostWbuf (addr + 1) bs

/-- `RBUF <addr>, <n>` (R78): one ObufRead a byte, at increasing addresses. -/
def hostRbuf : Nat → Nat → List HostInstr
  | _, 0 => []
  | addr, n + 1 => .txn (.obufRead addr) :: hostRbuf (addr + 1) n

end Sys2Proof.Machine
end

