-- ==== Sys2Proof/Machine/State.lean ====
section
/-!
DEFINITION. The machine's state as plain data: the state tuple of R20 (registers, STATUS fields, CRC_ACC, pending, IBUF,
OBUF, faulted), the sizes it was built with (R6), and the host that drives it (R20, R190, R199); and its value after reset (R251).
-/

namespace Sys2Proof.Machine

/-- The model faults of R232. Every one is SAFE: the run stops with a name where a real part would go on, so the model
proves nothing of such a run. -/
inductive Fault where
  /-- Raised by a host RegWrite or IbufWrite while STATUS.BUSY = 1 (R191, R192, R194). Safe. -/
  | writeWhileBusy
  /-- Raised by a host RegWrite to an RO register (R191). Safe. -/
  | writeToReadOnly
  /-- Raised by a host register access at a reserved, misaligned or out-of-range offset, or not 32 bits wide (R54,
  R191, R193). Safe. -/
  | badRegisterAccess
  /-- Raised by a host buffer access at an address at or above the buffer's size (R194 to R196), and, only in states
  that break the invariants of R40, by an engine read there (log entry 7). Safe. -/
  | bufferAddress
  /-- Raised by a command's MemRead (R11) and by a host IbufRead or ObufRead (R195, R196) of a cell unwritten since
  reset. Safe: a real buffer holds some value there. -/
  | unwrittenRead
deriving DecidableEq, Repr

/-- Why a command has no meaning in this model. -/
inductive Refusal where
  /-- Raised by an arm of `exec` whose command has no meaning yet. Safe. No arm raises it: all 11 commands are modelled. -/
  | notModelled (mnemonic : String)
deriving DecidableEq, Repr

/-- The errors a command can report in STATUS.ERR (R221, the rows marked as produced). The reserved codes 0x07 to 0x09
(InvalidEncoding, ChunkNotFound, DecryptionFailed) and the unassigned ones are never produced, so they have no name here. -/
inductive CmdError where
  | invalidByte
  | invalidLength
  | invalidSignature
  | lengthMismatch
  | invalidCrc
  | invalidChunkType
  | illegalCommand
  | rangeError
  | outputOverflow
  | noTag
  | noChunk
  | streamNotOpen
deriving DecidableEq, Repr

/-- The written cells of a buffer (R37, R38), by rising offset. An offset that is not listed is unwritten. -/
abbrev Memory := List Host.Cell

/-- The canonical form: offsets strictly rising, so each written cell stands once. An unlisted offset reads as
"unwritten", which is no byte (R37, R38; log entry 2), so no entry can equal what an unlisted offset reads as. -/
abbrev Memory.wf (m : Memory) : Prop := m.Pairwise (fun p q => p.1 < q.1)

/-- The state of the block (R20) and of the host that drives it. -/
structure State where
  /-- IBUF_SIZE and OBUF_SIZE, a parameter and not state (R6, R20): no step writes it (log entry 1) -/
  cfg : Config
  /-- CMD, the last command word written (R23) -/
  cmd : Word
  /-- ARG_ADDR, operand: IBUF start offset (R24) -/
  argAddr : Word
  /-- ARG_LEN, operand: byte count (R24) -/
  argLen : Word
  /-- TAG_IN, operand: 4 raw tag bytes (R25) -/
  tagIn : Word
  /-- TAG, the constructed chunk type (R26) -/
  tag : Word
  /-- STATUS.TAG_VALID (R22) -/
  tagValid : Bool
  /-- CH_TYPE, the descriptor's type (R27) -/
  chType : Word
  /-- CH_POFF, the descriptor's payload offset in IBUF (R27) -/
  chPoff : Word
  /-- CH_LEN, the descriptor's payload length (R27) -/
  chLen : Word
  /-- STATUS.CH_VALID (R22, R27) -/
  chValid : Bool
  /-- CH_CRC, the last chunk CRC computed (R28) -/
  chCrc : Word
  /-- CRC_ACC, the accumulator of the CRC-32 generator (R30) -/
  crcAcc : Word
  /-- OUT_PTR, the next OBUF offset to write (R31) -/
  outPtr : Word
  /-- ST_CUR, the stream cursor (R32) -/
  stCur : Word
  /-- ST_END, one past the stream's last byte (R32) -/
  stEnd : Word
  /-- ST_COUNT, chunks delivered from the open stream (R32) -/
  stCount : Word
  /-- STATUS.ST_ACTIVE (R22, R32) -/
  stActive : Bool
  /-- STATUS.END (R22) -/
  endFlag : Bool
  /-- STATUS.ERR (R22, R221): none is code 0x00 (log entry 6) -/
  err : Option CmdError
  /-- the issued command word that has not completed (R33); STATUS.BUSY is 1 exactly when there is one (R33, R40;
  log entry 6) -/
  pending : Option Word
  /-- IBUF (R37) -/
  ibuf : Memory
  /-- OBUF (R38) -/
  obuf : Memory
  /-- `faulted` (R34), with the fault of R232 that set it: none is false (log entry 9) -/
  faulted : Option Fault
  /-- the host program (R77, R199); the model's own field, an input of the machine (log entry 4) -/
  program : List HostInstr
  /-- the line of the host program that comes next; the model's own field (log entry 4) -/
  hostPos : Nat
  /-- the values the host program recorded from its reads, oldest first (R77, R201) -/
  recorded : List Reading
  /-- which agent moves at each of the next steps (R199); the model's own field, an input (log entry 3) -/
  turns : List Agent
  /-- how many times the run has taken a free delay; the model's own counter (log entry 17) -/
  draws : Nat
deriving DecidableEq, Repr

/-- The block after reset (R251) with the sizes `c`, and a host with nothing to do: every register at the value the
spec states, no cell written, nothing pending, no fault (R34: false at the start of a run). -/
def State.resetWith (c : Config) : State where
  cfg := c
  cmd := 0
  argAddr := 0
  argLen := 0
  tagIn := 0
  tag := 0
  tagValid := false
  chType := 0
  chPoff := 0
  chLen := 0
  chValid := false
  chCrc := 0
  crcAcc := 0xFFFFFFFF
  outPtr := 0
  stCur := 0
  stEnd := 0
  stCount := 0
  stActive := false
  endFlag := false
  err := none
  pending := none
  ibuf := []
  obuf := []
  faulted := none
  program := []
  hostPos := 0
  recorded := []
  turns := []
  draws := 0

/-- The machine right after power-on (R250, R251). Its sizes are the test vectors' (log entry 1). -/
def State.reset : State := State.resetWith Config.vectors

end Sys2Proof.Machine
end

