-- ==== Sys2Proof/Machine/Flags.lean ====
section
/-!
DEFINITION. The flag computations: the byte alphabet (R100), the chunk type flag decoder (R101 to R103), the error
codes (R221) and the STATUS word (R22).
-/

namespace Sys2Proof.Machine

/-- `letter(b)` of R100: A to Z or a to z. -/
def letter (b : Byte) : Bool :=
  (0x41 ≤ b.toNat && b.toNat ≤ 0x5A) || (0x61 ≤ b.toNat && b.toNat ≤ 0x7A)

/-- `letters4(t)` of R100. -/
def letters4 (t : Quad) : Bool := letter t.b0 && letter t.b1 && letter t.b2 && letter t.b3

/-- The case bit of a type byte, bit 5 (R101): set for a lowercase letter. -/
def caseBit (b : Byte) : Bool := b.getLsbD 5

/-- `critical(t)` of R101. -/
def tagCritical (t : Quad) : Bool := !caseBit t.b0

/-- `public(t)` of R101. -/
def tagPublic (t : Quad) : Bool := !caseBit t.b1

/-- `reserved_valid(t)` of R101. -/
def tagReservedValid (t : Quad) : Bool := !caseBit t.b2

/-- `safe_to_copy(t)` of R101: the opposite sense of the other three. -/
def tagSafeToCopy (t : Quad) : Bool := caseBit t.b3

/-- `valid(t)` of R101. -/
def tagIsValid (t : Quad) : Bool := tagReservedValid t

/-- A word whose bit `i` is `b` and whose other bits are 0. -/
def bitAt (i : Nat) (b : Bool) : Word := (BitVec.ofBool b).setWidth 32 <<< i

/-- `flags_word(v)` of R103, for a tag register value. -/
def flagsWord (v : Word) : Word :=
  bitAt 0 (tagCritical (bytesBe32 v)) ||| bitAt 1 (tagPublic (bytesBe32 v))
    ||| bitAt 2 (tagReservedValid (bytesBe32 v)) ||| bitAt 3 (tagSafeToCopy (bytesBe32 v))
    ||| bitAt 4 (tagIsValid (bytesBe32 v))

/-- `code(E)` of R221. -/
def errorCode : CmdError → Byte
  | .invalidByte => 0x01
  | .invalidLength => 0x02
  | .invalidSignature => 0x03
  | .lengthMismatch => 0x04
  | .invalidCrc => 0x05
  | .invalidChunkType => 0x06
  | .illegalCommand => 0x10
  | .rangeError => 0x11
  | .outputOverflow => 0x12
  | .noTag => 0x13
  | .noChunk => 0x14
  | .streamNotOpen => 0x15

/-- The STATUS.ERR field (R221): 0x00 when the last completed command succeeded. -/
def errField : Option CmdError → Byte
  | none => 0x00
  | some e => errorCode e

/-- STATUS.BUSY (R22, R33). -/
def State.busy (s : State) : Bool := s.pending.isSome

/-- The STATUS word (R22): ERR in 15:8, ST_ACTIVE, CH_VALID, TAG_VALID, END, BUSY in 4:0, the reserved bits 0. -/
def State.statusWord (s : State) : Word :=
  bitAt 0 s.busy ||| bitAt 1 s.endFlag ||| bitAt 2 s.tagValid ||| bitAt 3 s.chValid ||| bitAt 4 s.stActive
    ||| ((errField s.err).setWidth 32 <<< 8)

end Sys2Proof.Machine
end

