-- ==== Sys2Proof/Machine/Ops.lean ====
section
/-!
DEFINITION. The named operations over the buffers and the registers: one byte and many of a buffer (R11, R37, R38, R67),
the value a register reads as (R21, R193), issuing a command (R192), and the ways a command ends (R11, R12, R198, R222):
commit, raise, abort (R177), and the mark a model fault leaves (R198, R233).
-/

namespace Sys2Proof.Machine

/-- What a step, or the completion of a command, answers. -/
abbrev Result := Host.Outcome State Fault Refusal

/-! ### Buffers -/

/-- The byte a cell holds; none for an unwritten cell (R37, R38). -/
def memLookup : Memory → Nat → Option Byte
  | [], _ => none
  | (a, b) :: m, x => if a = x then some b else memLookup m x

/-- Set one cell (R67): the earlier byte is replaced, and the list stays in canonical form. -/
def memWrite : Memory → Nat → Byte → Memory
  | [], x, v => [(x, v)]
  | (a, b) :: m, x, v =>
    if x < a then (x, v) :: (a, b) :: m
    else if x = a then (x, v) :: m
    else (a, b) :: memWrite m x v

/-- `MemWrite` of R11, once committed: the bytes in order from offset `a` (R67). -/
def memWriteBytes : Memory → Nat → List Byte → Memory
  | m, _, [] => m
  | m, a, b :: bs => memWriteBytes (memWrite m a b) (a + 1) bs

/-- Read one cell of a buffer of `size` cells: outside it BufferAddress, an unwritten cell UnwrittenRead (R232). -/
def bufRead (size : Nat) (m : Memory) (a : Nat) : Except Fault Byte :=
  if size ≤ a then .error .bufferAddress
  else
    match memLookup m a with
    | some b => .ok b
    | none => .error .unwrittenRead

/-- Read `n` cells from offset `a`, lowest first; the first cell that cannot be read gives the fault. -/
def bufReadBytes (size : Nat) (m : Memory) : Nat → Nat → Except Fault (List Byte)
  | _, 0 => .ok []
  | a, n + 1 =>
    match bufRead size m a with
    | .error f => .error f
    | .ok b =>
      match bufReadBytes size m (a + 1) n with
      | .error f => .error f
      | .ok bs => .ok (b :: bs)

/-- `MemRead(a, n)` of R11: the engine's read of IBUF. -/
def State.memRead (s : State) (a n : Nat) : Except Fault (List Byte) :=
  bufReadBytes s.cfg.ibufSize s.ibuf a n

/-- `MemRead(a, 4)`, as four named bytes (R11). -/
def State.memRead4 (s : State) (a : Nat) : Except Fault Quad :=
  match bufRead s.cfg.ibufSize s.ibuf a with
  | .error f => .error f
  | .ok b0 =>
    match bufRead s.cfg.ibufSize s.ibuf (a + 1) with
    | .error f => .error f
    | .ok b1 =>
      match bufRead s.cfg.ibufSize s.ibuf (a + 2) with
      | .error f => .error f
      | .ok b2 =>
        match bufRead s.cfg.ibufSize s.ibuf (a + 3) with
        | .error f => .error f
        | .ok b3 => .ok { b0 := b0, b1 := b1, b2 := b2, b3 := b3 }

/-! ### Registers -/

/-- The value a register reads as (R193). The derived registers TAG_FLAGS, CH_FLAGS and CRC_OUT are functions of other
state (R29, R30), and the flag registers read 0 while their valid bit is 0 (R29). -/
def State.regValue (s : State) : Reg → Word
  | .cmd => s.cmd
  | .status => s.statusWord
  | .argAddr => s.argAddr
  | .argLen => s.argLen
  | .tagIn => s.tagIn
  | .tag => s.tag
  | .tagFlags => if s.tagValid then flagsWord s.tag else 0
  | .chType => s.chType
  | .chFlags => if s.chValid then flagsWord s.chType else 0
  | .chPoff => s.chPoff
  | .chLen => s.chLen
  | .chCrc => s.chCrc
  | .crcOut => ~~~ s.crcAcc
  | .outPtr => s.outPtr
  | .stCur => s.stCur
  | .stEnd => s.stEnd
  | .stCount => s.stCount

/-- A write of `w` to CMD while BUSY = 0 (R192): the word is stored and latched, BUSY becomes 1, ERR and END clear. -/
def State.issue (s : State) (w : Word) : State :=
  { s with cmd := w, pending := some w, err := none, endFlag := false }

/-! ### How a command ends -/

/-- The end of every completion that is not a model fault (R198): the latch empties, so BUSY is 0, and ERR and END are set. -/
def State.complete (s : State) (e : Option CmdError) (atEnd : Bool) : State :=
  { s with pending := none, err := e, endFlag := atEnd }

/-- `commit` (R11, R198): `s` holds the staged writes, which take effect; ERR is 0x00 and END 0. -/
def commit (s : State) : Result := .next (s.complete none false)

/-- `commit` of a STREAM_NEXT at exhaustion (R172, R198): as `commit`, with END 1. -/
def commitAtEnd (s : State) : Result := .next (s.complete none true)

/-- `raise E` (R11, R12, R222): `s` is the state before the command, so no staged write takes effect; ERR is code(E), END 0. -/
def raise (e : CmdError) (s : State) : Result := .next (s.complete (some e) false)

/-- `abort E` of STREAM_NEXT (R177): ST_ACTIVE clears, and then `raise E`. -/
def abort (e : CmdError) (s : State) : Result := raise e { s with stActive := false }

/-- The state a model fault of the host leaves (R233): the mark, and nothing else. -/
def State.markFault (s : State) (f : Fault) : State := { s with faulted := some f }

/-- The state a model fault of a command leaves (R198, R233): the mark and an empty latch; the command commits nothing. -/
def State.faultCommand (s : State) (f : Fault) : State := { s with faulted := some f, pending := none }

/-! ### The chunk-record parser -/

/-- Why `parse_chunk` stops: it raises an error, or a byte it reads faults the run (R145, R232). -/
inductive ParseStop where
  | error (e : CmdError)
  | fault (f : Fault)
deriving DecidableEq, Repr

/-- The values `parse_chunk` stages for the descriptor and CH_CRC (R145). -/
structure ChunkRecord where
  chType : Word
  chPoff : Word
  chLen : Word
  chCrc : Word
deriving DecidableEq, Repr

/-- The checks and reads of `parse_chunk` after its length checks (R145): the type, the payload, the trailing CRC, in that
order; `l` is the record's length. -/
def State.parseBody (s : State) (a l : Nat) : Except ParseStop ChunkRecord :=
  match s.memRead4 (a + 4) with
  | .error f => .error (.fault f)
  | .ok t =>
    if letters4 t = false then .error (.error .invalidChunkType)
    else
      match s.memRead (a + 8) l with
      | .error f => .error (.fault f)
      | .ok p =>
        match s.memRead4 (a + 8 + l) with
        | .error f => .error (.fault f)
        | .ok w =>
          if be32 w ≠ chunkCrc t p then .error (.error .invalidCrc)
          else
            .ok { chType := be32 t, chPoff := BitVec.ofNat 32 (a + 8), chLen := BitVec.ofNat 32 l,
                  chCrc := chunkCrc t p }

/-- `parse_chunk(a, n)` (R145): the one chunk-record parser. `L + 12` is over the naturals, so it never wraps (D18). -/
def State.parseChunk (s : State) (a n : Nat) : Except ParseStop ChunkRecord :=
  if n < 4 then .error (.error .lengthMismatch)
  else
    match s.memRead4 a with
    | .error f => .error (.fault f)
    | .ok q =>
      if n ≠ (be32 q).toNat + 12 then .error (.error .lengthMismatch)
      else s.parseBody a (be32 q).toNat

/-- Stage the descriptor, CH_CRC and CH_VALID (R145). -/
def State.setChunk (s : State) (r : ChunkRecord) : State :=
  { s with chType := r.chType, chPoff := r.chPoff, chLen := r.chLen, chCrc := r.chCrc, chValid := true }

/-! ### Output -/

/-- Stage an output of `bs` at OUT_PTR (R143, R173): the bytes go to OBUF and OUT_PTR advances by their count. -/
def State.emit (s : State) (bs : List Byte) : State :=
  { s with obuf := memWriteBytes s.obuf s.outPtr.toNat bs,
           outPtr := BitVec.ofNat 32 (s.outPtr.toNat + bs.length) }

/-! ### Reset -/

/-- Reset (R197, R250 to R254): the block's state is that of R251, a pending command is discarded (R252), the fault mark
stays (R254), and the sizes and the host are not the block's to reset (log entry 15). -/
def State.resetBlock (s : State) : State :=
  { State.resetWith s.cfg with
    faulted := s.faulted, program := s.program, hostPos := s.hostPos, recorded := s.recorded, turns := s.turns,
    draws := s.draws }

end Sys2Proof.Machine
end

