-- ==== Sys2Proof/Machine/Operands.lean ====
section
/-!
DEFINITION. The operand forms of R72: the IBUF range named by ARG_ADDR and ARG_LEN, the raw bytes of TAG_IN, the descriptor's
type and payload, the rest of the open stream, and the room in OBUF from OUT_PTR. Sums are over the naturals (R10).
-/

namespace Sys2Proof.Machine

/-- `a`, the start of the ARG range (R24, R72). -/
def State.argStart (s : State) : Nat := s.argAddr.toNat

/-- `n`, the byte count of the ARG range (R24, R72). -/
def State.argCount (s : State) : Nat := s.argLen.toNat

/-- The range check of R59, `a + n ≤ IBUF_SIZE`. The empty range at the end of IBUF is in range (D35). -/
abbrev State.argInRange (s : State) : Prop := s.argStart + s.argCount ≤ s.cfg.ibufSize

/-- The four raw tag bytes of TAG_IN (R25, R105). -/
def State.tagInBytes (s : State) : Quad := bytesBe32 s.tagIn

/-- The descriptor's type (R140). -/
def State.chunkType (s : State) : Quad := bytesBe32 s.chType

/-- The descriptor's payload as IBUF holds it now (R140). -/
def State.readPayload (s : State) : Except Fault (List Byte) := s.memRead s.chPoff.toNat s.chLen.toNat

/-- `r`, the bytes left in the open stream (R172). -/
def State.streamRest (s : State) : Nat := s.stEnd.toNat - s.stCur.toNat

/-- The overflow check of R59, `OUT_PTR + n ≤ OBUF_SIZE`. -/
abbrev State.outFits (s : State) (n : Nat) : Prop := s.outPtr.toNat + n ≤ s.cfg.obufSize

/-- The record of a chunk on the wire (R75, R143): LENGTH, TYPE, DATA, CRC. -/
def chunkBytes (len : Word) (t : Quad) (p : List Byte) (crc : Word) : List Byte :=
  quadBytes (bytesBe32 len) ++ quadBytes t ++ p ++ quadBytes (bytesBe32 crc)

end Sys2Proof.Machine
end

