-- ==== Sys2Proof/Machine/ChunkUnit.lean ====
section
/-!
DEFINITION. The chunk framer's commands: CHUNK_SET (R141), CHUNK_CRC (R142), CHUNK_SERIALIZE (R143), CHUNK_PARSE (R144).
-/

namespace Sys2Proof.Machine

/-- CHUNK_SET (R141): IBUF is not read and CH_CRC is not written. -/
def execChunkSet (s : State) : Result :=
  if s.tagValid = false then raise .noTag s
  else if ¬ s.argInRange then raise .rangeError s
  else commit { s with chType := s.tag, chPoff := s.argAddr, chLen := s.argLen, chValid := true }

/-- CHUNK_CRC (R142). -/
def execChunkCrc (s : State) : Result :=
  if s.chValid = false then raise .noChunk s
  else
    match s.readPayload with
    | .error f => .fault f
    | .ok p => commit { s with chCrc := chunkCrc s.chunkType p }

/-- CHUNK_SERIALIZE (R143): the overflow check comes before the payload is read. -/
def execChunkSerialize (s : State) : Result :=
  if s.chValid = false then raise .noChunk s
  else if ¬ s.outFits (12 + s.chLen.toNat) then raise .outputOverflow s
  else
    match s.readPayload with
    | .error f => .fault f
    | .ok p =>
      let c := chunkCrc s.chunkType p
      commit { s.emit (chunkBytes s.chLen s.chunkType p c) with chCrc := c }

/-- CHUNK_PARSE (R144). -/
def execChunkParse (s : State) : Result :=
  if ¬ s.argInRange then raise .rangeError s
  else
    match s.parseChunk s.argStart s.argCount with
    | .error (.fault f) => .fault f
    | .error (.error e) => raise e s
    | .ok r => commit (s.setChunk r)

end Sys2Proof.Machine
end

