-- ==== Sys2Proof/Machine/CrcUnit.lean ====
section
/-!
DEFINITION. The CRC-32 generator's commands: CRC_INIT (R125) and CRC_FEED (R126).
-/

namespace Sys2Proof.Machine

/-- CRC_INIT (R125). -/
def execCrcInit (s : State) : Result := commit { s with crcAcc := crcInitial }

/-- CRC_FEED (R126). -/
def execCrcFeed (s : State) : Result :=
  if s.argInRange then
    match s.memRead s.argStart s.argCount with
    | .error f => .fault f
    | .ok bs => commit { s with crcAcc := crcFold s.crcAcc bs }
  else raise .rangeError s

end Sys2Proof.Machine
end

