-- ==== Sys2Proof/Machine/StreamUnit.lean ====
section
/-!
DEFINITION. The stream framer's commands: STREAM_OPEN (R171), STREAM_NEXT (R172, R177), SIG_EMIT (R173).
-/

namespace Sys2Proof.Machine

/-- STREAM_OPEN (R171): all 8 bytes are read before they are compared. -/
def execStreamOpen (s : State) : Result :=
  if ¬ s.argInRange then raise .rangeError s
  else if s.argCount < 8 then raise .invalidSignature s
  else
    match s.memRead s.argStart 8 with
    | .error f => .fault f
    | .ok bs =>
      if bs ≠ signature then raise .invalidSignature s
      else
        commit
          { s with
            stCur := BitVec.ofNat 32 (s.argStart + 8), stEnd := BitVec.ofNat 32 (s.argStart + s.argCount),
            stCount := 0, stActive := true }

/-- Advance the stream past a delivered chunk of length `l` (R172). -/
def State.advanceStream (s : State) (l : Nat) : State :=
  { s with stCur := BitVec.ofNat 32 (s.stCur.toNat + 12 + l), stCount := s.stCount + 1 }

/-- STREAM_NEXT (R172): not open, exhausted, a rest that cannot hold the next chunk, or one chunk parsed. An error after
the stream was found open aborts it (R177). -/
def execStreamNext (s : State) : Result :=
  if s.stActive = false then raise .streamNotOpen s
  else if s.streamRest = 0 then commitAtEnd { s with stActive := false }
  else if s.streamRest < 4 then abort .lengthMismatch s
  else
    match s.memRead4 s.stCur.toNat with
    | .error f => .fault f
    | .ok q =>
      if s.streamRest < 12 + (be32 q).toNat then abort .lengthMismatch s
      else
        match s.parseChunk s.stCur.toNat (12 + (be32 q).toNat) with
        | .error (.fault f) => .fault f
        | .error (.error e) => abort e s
        | .ok r => commit ((s.setChunk r).advanceStream (be32 q).toNat)

/-- SIG_EMIT (R173). -/
def execSigEmit (s : State) : Result :=
  if s.outFits 8 then commit (s.emit signature) else raise .outputOverflow s

end Sys2Proof.Machine
end

