-- ==== Sys2Proof/Machine/TagUnit.lean ====
section
/-!
DEFINITION. The chunk type flag decoder's commands: TAG_CONSTRUCT (R105) and TAG_PARSE (R106).
-/

namespace Sys2Proof.Machine

/-- TAG_CONSTRUCT (R105). -/
def execTagConstruct (s : State) : Result :=
  if letters4 s.tagInBytes then commit { s with tag := s.tagIn, tagValid := true }
  else raise .invalidByte s

/-- TAG_PARSE (R106): RangeError, then InvalidLength, then the bytes are read, then InvalidByte. -/
def execTagParse (s : State) : Result :=
  if ¬ s.argInRange then raise .rangeError s
  else if s.argCount ≠ 4 then raise .invalidLength s
  else
    match s.memRead4 s.argStart with
    | .error f => .fault f
    | .ok t => if letters4 t then commit { s with tag := be32 t, tagValid := true } else raise .invalidByte s

end Sys2Proof.Machine
end

