-- ==== Sys2Proof/Machine/Dispatch.lean ====
section
/-!
DEFINITION. The dispatch: one arm per command of R71. `exec i s` is the engine's completion of the legal command `i` (R198).
-/

namespace Sys2Proof.Machine

def exec (i : Instr) (s : State) : Host.Outcome State Fault Refusal :=
  match i with
  | .crcInit => Sys2Proof.Machine.execCrcInit s
  | .crcFeed => Sys2Proof.Machine.execCrcFeed s
  | .tagConstruct => Sys2Proof.Machine.execTagConstruct s
  | .tagParse => Sys2Proof.Machine.execTagParse s
  | .chunkSet => Sys2Proof.Machine.execChunkSet s
  | .chunkCrc => Sys2Proof.Machine.execChunkCrc s
  | .chunkSerialize => Sys2Proof.Machine.execChunkSerialize s
  | .chunkParse => Sys2Proof.Machine.execChunkParse s
  | .streamOpen => Sys2Proof.Machine.execStreamOpen s
  | .streamNext => Sys2Proof.Machine.execStreamNext s
  | .sigEmit => Sys2Proof.Machine.execSigEmit s

end Sys2Proof.Machine
end

