-- ==== Sys2Proof/Machine/HostUnit.lean ====
section
/-!
DEFINITION. The host's transactions (R191 to R197) and one move of the host's program (R78, R199).
-/

namespace Sys2Proof.Machine

/-- RegWrite (R191, R192). The BUSY check comes first, as in the rules' pseudocode (log entry 8).
The width comes next, so a write of another width than 32 bits to an RO register is BadRegisterAccess: R191 and R232 give
both faults to it and no order (DESIGN CHOICE, safe, log entry 16). -/
def hostRegWrite (s : State) (width off : Nat) (v : Word) : Result :=
  if s.busy then .fault .writeWhileBusy
  else if width ≠ 32 then .fault .badRegisterAccess
  else
    match regAt off with
    | none => .fault .badRegisterAccess
    | some .cmd => .next (s.issue v)
    | some .argAddr => .next { s with argAddr := v }
    | some .argLen => .next { s with argLen := v }
    | some .tagIn => .next { s with tagIn := v }
    | some .outPtr => .next { s with outPtr := v }
    | some .status | some .tag | some .tagFlags | some .chType | some .chFlags | some .chPoff | some .chLen
    | some .chCrc | some .crcOut | some .stCur | some .stEnd | some .stCount => .fault .writeToReadOnly

/-- Append a value to what the host's program recorded (R77, R201). -/
def State.record (s : State) (r : Reading) : State := { s with recorded := s.recorded ++ [r] }

/-- RegRead (R193): allowed whatever BUSY is, and it changes nothing of the block. The value is recorded whatever line of
the program reads it, a poll of WAIT too (DESIGN CHOICE, log entry 18). -/
def hostRegRead (s : State) (width off : Nat) : Result :=
  if width ≠ 32 then .fault .badRegisterAccess
  else
    match regAt off with
    | none => .fault .badRegisterAccess
    | some r => .next (s.record (.word (s.regValue r)))

/-- IbufWrite (R194). -/
def hostIbufWrite (s : State) (addr : Nat) (b : Byte) : Result :=
  if s.busy then .fault .writeWhileBusy
  else if s.cfg.ibufSize ≤ addr then .fault .bufferAddress
  else .next { s with ibuf := memWrite s.ibuf addr b }

/-- IbufRead (R195). -/
def hostIbufRead (s : State) (addr : Nat) : Result :=
  match bufRead s.cfg.ibufSize s.ibuf addr with
  | .error f => .fault f
  | .ok b => .next (s.record (.byte b))

/-- ObufRead (R196). -/
def hostObufRead (s : State) (addr : Nat) : Result :=
  match bufRead s.cfg.obufSize s.obuf addr with
  | .error f => .fault f
  | .ok b => .next (s.record (.byte b))

/-- One host transaction (R190), in a state that is not faulted. -/
def perform (t : Txn) (s : State) : Result :=
  match t with
  | .regWrite width off v => hostRegWrite s width off v
  | .regRead width off => hostRegRead s width off
  | .ibufWrite addr b => hostIbufWrite s addr b
  | .ibufRead addr => hostIbufRead s addr
  | .obufRead addr => hostObufRead s addr
  | .reset => .next s.resetBlock

/-- The host goes on to the next line of its program. -/
def State.nextLine (s : State) : State := { s with hostPos := s.hostPos + 1 }

/-- Whether a branch of the host is taken: the last value read, masked, equals the value asked for (R78). With nothing
read it is not taken (log entry 4). -/
def State.branchTaken (s : State) (mask value : Word) : Bool :=
  match s.recorded.getLast? with
  | none => false
  | some r => (readingValue r &&& mask) == value

/-- One move of the host (R199): the next line of its program; nothing when no line is left (R201). A transaction that
faults marks the state (R233). -/
def hostMove (s : State) : Result :=
  match s.program[s.hostPos]? with
  | none => .next s
  | some (.gotoIf mask value target) =>
    if s.branchTaken mask value then .next { s with hostPos := target } else .next s.nextLine
  | some (.txn t) =>
    match perform t s with
    | .next s' => .next s'.nextLine
    | .fault f => .next (s.markFault f)
    | .refused r => .refused r

end Sys2Proof.Machine
end

