-- ==== Sys2Proof/Machine/Engine.lean ====
section
/-!
DEFINITION. The engine's one step, Complete (R198), and which agent moves (R199, R262).
-/

namespace Sys2Proof.Machine

/-- The outcome of a pending word (R73, R198): an illegal word raises IllegalCommand, a legal one runs its command. -/
def runWord (w : Word) (s : State) : Result :=
  match decode w with
  | .error _ => raise .illegalCommand s
  | .ok i => exec i s

/-- Complete (R198), in a state that is not faulted. It is enabled exactly when BUSY = 1; with nothing pending the
engine does nothing (R253). A model fault of the command marks the state and empties the latch. -/
def complete (s : State) : Result :=
  match s.pending with
  | none => .next s
  | some w =>
    match runWord w s with
    | .next s' => .next s'
    | .fault f => .next (s.faultCommand f)
    | .refused r => .refused r

/-- The list of turns, with the free part of the schedule added where the list is used up and a command is pending: a free
and finite number of moves of the host, then the engine's (R199, R262; log entries 3 and 17). -/
def State.scheduled (s : State) : State :=
  match s.turns, s.pending with
  | [], some _ =>
    { s with turns := List.replicate (Config.completionDelay s.draws) .host ++ [.engine], draws := s.draws + 1 }
  | _, _ => s

/-- The agent that moves next (R199): the one the turns name. With no turn left nothing is pending, and the host moves. -/
def State.mover (s : State) : Agent :=
  match s.scheduled.turns with
  | a :: _ => a
  | [] => .host

/-- Use up one turn. -/
def State.popTurn (s : State) : State := { s.scheduled with turns := s.scheduled.turns.tail }

/-- One event of the run (R190), in a state that is not faulted. -/
def event (s : State) : Result :=
  match s.mover with
  | .engine => complete s.popTurn
  | .host => hostMove s.popTurn

/-- `s` with the word of a table row issued and the engine next to move. -/
def State.withPendingWord (s : State) (w : Word) : State :=
  { s.issue w with turns := .engine :: s.turns }

end Sys2Proof.Machine
end

