-- ==== Sys2Proof/Machine/Step.lean ====
section
/-!
DEFINITION. The step of the machine: a faulted state has no event (R190, R233), any other performs one event (R60, R190).
-/

namespace Sys2Proof.Machine

/-- One step. A state whose fault mark is set has no further step: the answer is the fault that set it (R34, R233). -/
def step (s : State) : Host.Outcome State Fault Refusal :=
  match s.faulted with
  | some f => .fault f
  | none => event s

/-- `s` with a command issued so that the very next step completes it: CMD and the latch hold the word, ERR and END are
clear as after a CMD write (R192), and the next turn is the engine's (log entry 5). -/
def State.withFetchWord (s : State) (nbits w : Nat) : State := s.withPendingWord (tableWord nbits w)

end Sys2Proof.Machine
end

