-- ==== Sys2Proof/WellFormed.lean ====
section
/-!
DEFINITION. The checks on what enters the machine: which command words are legal (R73), which commands are
well-formed (R72), which host transactions the access rules allow (R54, R21, R194 to R196), and a machine's sizes (R6).
-/

namespace Sys2Proof

/-- `legal(w)` of R73, as the rule writes it. -/
def legalWord (w : Word) : Bool :=
  (w.toNat / 256 == 0)
    && [0x01, 0x02, 0x10, 0x11, 0x20, 0x21, 0x22, 0x23, 0x30, 0x31, 0x32].contains (w.toNat % 256)

/-- A command is well-formed when its word is legal. No command has an operand field (R72), so nothing else can be wrong. -/
abbrev Instr.WellFormed (i : Instr) : Prop := legalWord (encode i) = true

/-- A register access that R54 and R21 allow: 32 bits wide, at the offset of a register of the map. -/
abbrev Machine.RegAccessOk (width off : Nat) : Prop := width = 32 ∧ off % 4 = 0 ∧ off < 0x44

/-- A host transaction that no access rule faults, whatever the state holds: register accesses as R54 and R21 ask, a
register write only to CMD or an RW register (R191, R192), a buffer address inside its buffer (R194 to R196).
A write while BUSY and a read of an unwritten cell depend on the state and are not decided here. -/
def Machine.Txn.wf (c : Config) : Machine.Txn → Bool
  | .regWrite width off _ => width == 32 && [0x00, 0x08, 0x0C, 0x10, 0x34].contains off
  | .regRead width off => width == 32 && off % 4 == 0 && Nat.blt off 0x44
  | .ibufWrite addr _ => Nat.blt addr c.ibufSize
  | .ibufRead addr => Nat.blt addr c.ibufSize
  | .obufRead addr => Nat.blt addr c.obufSize
  | .reset => true

end Sys2Proof
end

