-- ==== Sys2Proof/Safety.lean ====
section
/-!
DEFINITION. What claims about the machine are stated in: the invariants of R40 with the form of the two buffers, the end of
a run and its observation (R201), and what it is for a buffer to hold a byte sequence.
-/

namespace Sys2Proof.Machine

/-- `bs` stands at offset `a` of a buffer: every one of its cells is written and holds the byte. -/
def Holds (m : Memory) (a : Nat) (bs : List Byte) : Prop :=
  ∀ k, k < bs.length → memLookup m (a + k) = bs[k]?

/-- Some cell of the `n` cells at offset `a` is unwritten (R37). -/
def Unwritten (m : Memory) (a n : Nat) : Prop := ∃ k, k < n ∧ memLookup m (a + k) = none

/-- Byte `i` of a tag register, `TAG[31−8i : 24−8i]` (R108), and of a numeric field in wire order (R50, R51). -/
def wordByte (v : Word) (i : Nat) : Byte := v.extractLsb' (24 - 8 * i) 8

/-- The four bytes of a word in wire order (R50, R51). -/
def wordBytes (v : Word) : List Byte := [wordByte v 0, wordByte v 1, wordByte v 2, wordByte v 3]

/-- An ASCII letter, as R100 gives the two ranges. -/
abbrev IsLetter (b : Byte) : Prop := (0x41#8 ≤ b ∧ b ≤ 0x5A#8) ∨ (0x61#8 ≤ b ∧ b ≤ 0x7A#8)

/-- All four bytes of a tag register are ASCII letters (R26, R27, R40). -/
abbrev LetterTag (v : Word) : Prop := ∀ i, i < 4 → IsLetter (wordByte v i)

/-- The record of a chunk on the wire (R75): LENGTH, TYPE, DATA, CRC. -/
def recordBytes (len ty : Word) (p : List Byte) (crc : Word) : List Byte :=
  wordBytes len ++ wordBytes ty ++ p ++ wordBytes crc

/-- What STATUS holds after a command that succeeded and was no STREAM_NEXT at exhaustion (R198): BUSY 0, ERR 0x00, END 0. -/
def afterSuccess (s : State) : State := { s with pending := none, err := none, endFlag := false }

/-- What STATUS holds after a command that reported `e` (R198, R222): BUSY 0, ERR code(e), END 0. -/
def afterError (e : CmdError) (s : State) : State := { s with pending := none, err := some e, endFlag := false }

/-- A buffer in canonical form with no written cell outside its `size` cells (R37, R38). -/
structure BufferOk (size : Nat) (m : Memory) : Prop where
  wf : Memory.wf m
  inside : ∀ a b, memLookup m a = some b → a < size

/-- The invariants of R40, items 1 to 3, with the sizes inside the bounds of R6, both buffers as R37 and R38 have them,
and the bound on ST_COUNT from which R172 concludes that it never wraps (DEDUCED, log entry 12). Items 4 to 6 of R40 hold in every state by the
form of the state (BUSY is read off the latch, the reserved STATUS bits have no storage, ERR holds only produced codes). -/
structure StateInv (s : State) : Prop where
  cfg : s.cfg.Wf
  ibuf : BufferOk s.cfg.ibufSize s.ibuf
  obuf : BufferOk s.cfg.obufSize s.obuf
  tag : s.tagValid = true → LetterTag s.tag
  chType : s.chValid = true → LetterTag s.chType
  chRange : s.chValid = true → s.chPoff.toNat + s.chLen.toNat ≤ s.cfg.ibufSize
  stream : s.stActive = true → s.stCur.toNat ≤ s.stEnd.toNat ∧ s.stEnd.toNat ≤ s.cfg.ibufSize
  count : s.stActive = true → 8 + 12 * s.stCount.toNat ≤ s.stCur.toNat

/-- `k` steps, stopping at the first answer that is no next state: the run of R190. -/
def runSteps : Nat → State → Result
  | 0, s => .next s
  | k + 1, s =>
    match step s with
    | .next t => runSteps k t
    | .fault f => .fault f
    | .refused r => .refused r

/-- The loop of a container parse (R174), as the commands' meanings one after another: STREAM_NEXT until END is 1 or an error
is reported, `k` times at most. -/
def parseStream : Nat → State → Result
  | 0, s => .next s
  | k + 1, s =>
    match exec .streamNext s with
    | .next t => if t.endFlag = true ∨ t.err ≠ none then .next t else parseStream k t
    | r => r

/-- The same loop with a CHUNK_SERIALIZE right after each STREAM_NEXT that delivered a chunk (R176); an error of either
command ends it. -/
def copyStream : Nat → State → Result
  | 0, s => .next s
  | k + 1, s =>
    match exec .streamNext s with
    | .next t =>
      if t.endFlag = true ∨ t.err ≠ none then .next t
      else
        match exec .chunkSerialize t with
        | .next u => if u.err ≠ none then .next u else copyStream k u
        | r => r
    | r => r

/-- The end of a run (R201): the host's program has no line left, BUSY is 0 and no fault is recorded. -/
def Ended (s : State) : Prop :=
  s.program[s.hostPos]? = none ∧ s.busy = false ∧ s.faulted = none

/-- The observation of a run at its end (R201): the recorded values, the final register values, the written cells of OBUF.
The recorded values hold WAIT's polls too, so how many they are depends on the schedule (DESIGN CHOICE, log entry 18). -/
def observation (s : State) : List Reading × List Word × Memory :=
  (s.recorded, allRegs.map s.regValue, s.obuf)

end Sys2Proof.Machine
end

