-- ==== Sys2Proof/Certificates/Slice0/Obligations.lean ====
section
/-!
DEFINITION. The statements for the provers, from the numbered rules of spec/. A statement speaks of every state and every
buffer size; no program and no size of `Config.vectors` stands in one. Where a statement rests on an entry of the assumption
log, its docstring names the entry.
-/

open Sys2Proof Sys2Proof.Machine

/-! ### Encoding -/

/-- R71, the opcode map: the decoder reads each of the 11 words, written out from the rule's table, as its command. -/
def Obligations.OpcodeMapWords : Prop :=
  decode 0x00000001#32 = .ok .crcInit ∧ decode 0x00000002#32 = .ok .crcFeed
    ∧ decode 0x00000010#32 = .ok .tagConstruct ∧ decode 0x00000011#32 = .ok .tagParse
    ∧ decode 0x00000020#32 = .ok .chunkSet ∧ decode 0x00000021#32 = .ok .chunkCrc
    ∧ decode 0x00000022#32 = .ok .chunkSerialize ∧ decode 0x00000023#32 = .ok .chunkParse
    ∧ decode 0x00000030#32 = .ok .streamOpen ∧ decode 0x00000031#32 = .ok .streamNext
    ∧ decode 0x00000032#32 = .ok .sigEmit

/-- R70, R71: decoding and encoding agree, both ways. A word decodes to a command exactly when it is that command's word. -/
def Obligations.DecodeEncodeAgree : Prop :=
  ∀ (w : Word) (i : Instr), decode w = .ok i ↔ encode i = w

/-- R73: decoding is total. A legal word runs a command of R71, an illegal one completes with IllegalCommand (code 0x10) and
changes no other state, and either one is issued by a CMD write while BUSY = 0. -/
def Obligations.EveryWordIsDecided : Prop :=
  ∀ (w : Word) (s : State),
    ((w.extractLsb' 8 24 = 0 ∧
        w.extractLsb' 0 8 ∈ [0x01#8, 0x02#8, 0x10#8, 0x11#8, 0x20#8, 0x21#8, 0x22#8, 0x23#8, 0x30#8, 0x31#8, 0x32#8]) →
      ∃ i, encode i = w ∧ decode w = .ok i ∧ runWord w s = exec i s)
    ∧ (¬ (w.extractLsb' 8 24 = 0 ∧
        w.extractLsb' 0 8 ∈ [0x01#8, 0x02#8, 0x10#8, 0x11#8, 0x20#8, 0x21#8, 0x22#8, 0x23#8, 0x30#8, 0x31#8, 0x32#8]) →
      runWord w s = .next (afterError .illegalCommand s) ∧ errField (afterError .illegalCommand s).err = 0x10)
    ∧ (s.busy = false →
      ∃ t, perform (.regWrite 32 0x00 w) s = .next t ∧ t.pending = some w ∧ t.busy = true)

/-! ### The step, the agents, and model faults -/

/-- R198: when the engine moves and the pending word decodes to a command, the step is that command's meaning on the state
with the turn used up; a model fault of the meaning marks the state and empties the latch. -/
def Obligations.StepRunsDecodedCommand : Prop :=
  ∀ (s : State) (w : Word) (i : Instr),
    s.faulted = none → s.mover = .engine → s.pending = some w → decode w = .ok i →
      step s = match exec i s.popTurn with
        | .next t => .next t
        | .fault f => .next { s.popTurn with faulted := some f, pending := none }
        | .refused r => .refused r

/-- R73, R198: when the engine moves and the pending word decodes to no command, the step reports IllegalCommand and
changes nothing else (the turn is used up). -/
def Obligations.StepRejectsIllegalWord : Prop :=
  ∀ (s : State) (w : Word) (d : DecodeError),
    s.faulted = none → s.mover = .engine → s.pending = some w → decode w = .error d →
      step s = .next (afterError .illegalCommand s.popTurn)

/-- R233: a model fault sets `faulted`, which nothing clears, not even Reset; a faulted state has no event and is never the
end of a run; a command that faults commits nothing. That the mark holds the fault's name, and that a step of a faulted
state answers that fault, is log entry 9; the turn that the event uses up is log entry 3's: both are the model's. -/
def Obligations.ModelFaultsArePermanent : Prop :=
  (∀ (s : State) (w : Word) (f : Fault), s.faulted = none → s.mover = .engine → s.pending = some w →
      runWord w s.popTurn = .fault f → step s = .next { s.popTurn with faulted := some f, pending := none })
    ∧ (∀ (s : State) (x : Txn) (f : Fault), s.faulted = none → s.mover = .host →
      s.program[s.hostPos]? = some (.txn x) → perform x s.popTurn = .fault f →
      step s = .next { s.popTurn with faulted := some f })
    ∧ (∀ (s : State) (f : Fault), s.faulted = some f → step s = .fault f ∧ ¬ Ended s)
    ∧ (∀ (s : State) (f : Fault), s.faulted = some f → ∃ t, perform .reset s = .next t ∧ t.faulted = some f)

/-- R198, R199, R253: the turn at the head of the list says who moves. The host's turn is a move of the host and the engine's a
completion, each whether or not a command is pending; the engine's with nothing pending only passes; an idle machine stays
as it is. With the list used up the host moves while nothing is pending, and while a command is pending the host moves a
free number of times and then the engine once (that form of the schedule is the model's, log entries 3 and 17). Using up a
turn changes nothing but the schedule. -/
def Obligations.TurnsChooseTheAgent : Prop :=
  (∀ (s : State) (r : List Agent), s.faulted = none → s.turns = .host :: r →
      s.mover = .host ∧ s.popTurn = { s with turns := r } ∧ step s = hostMove { s with turns := r })
    ∧ (∀ (s : State) (r : List Agent), s.faulted = none → s.turns = .engine :: r →
      s.mover = .engine ∧ s.popTurn = { s with turns := r } ∧ step s = complete { s with turns := r })
    ∧ (∀ (s : State) (r : List Agent), s.faulted = none → s.turns = .engine :: r → s.pending = none →
      step s = .next { s with turns := r })
    ∧ (∀ s : State, s.faulted = none → s.turns = [] → s.pending = none →
      s.mover = .host ∧ s.popTurn = s ∧ step s = hostMove s)
    ∧ (∀ s : State, s.faulted = none → s.turns = [] → s.pending = none → s.program[s.hostPos]? = none →
      step s = .next s)
    ∧ (∀ (s : State) (w : Word), s.faulted = none → s.turns = [] → s.pending = some w →
      step s = step { s with
        turns := List.replicate (Config.completionDelay s.draws) .host ++ [.engine], draws := s.draws + 1 })
    ∧ (∀ s : State, s.popTurn = { s with turns := s.popTurn.turns, draws := s.popTurn.draws })

/-- R77, R199, R201: a turn of the host runs the next line of its program, whether or not a command is pending. A transaction
that does not fault has its effect and the host goes on to the line after it; a branch goes to its target exactly when the
last value read, masked, is the value asked for, and to the line after it otherwise or when nothing has been read (the form
of the branch is the model's, log entry 4); with no line left nothing happens. -/
def Obligations.HostTurnRunsTheNextLine : Prop :=
  ∀ (s : State) (r : List Agent), s.faulted = none → s.turns = .host :: r →
    (∀ (x : Txn) (t : State), s.program[s.hostPos]? = some (.txn x) → perform x { s with turns := r } = .next t →
        step s = .next { t with hostPos := s.hostPos + 1 })
      ∧ (∀ (m v : Word) (p : Nat) (xs : List Reading) (u : Word), s.program[s.hostPos]? = some (.gotoIf m v p) →
        s.recorded = xs ++ [.word u] →
        step s = .next { s with turns := r, hostPos := if u &&& m = v then p else s.hostPos + 1 })
      ∧ (∀ (m v : Word) (p : Nat) (xs : List Reading) (b : Byte), s.program[s.hostPos]? = some (.gotoIf m v p) →
        s.recorded = xs ++ [.byte b] →
        step s = .next { s with turns := r, hostPos := if b.setWidth 32 &&& m = v then p else s.hostPos + 1 })
      ∧ (∀ (m v : Word) (p : Nat), s.program[s.hostPos]? = some (.gotoIf m v p) → s.recorded = [] →
        step s = .next { s with turns := r, hostPos := s.hostPos + 1 })
      ∧ (s.program[s.hostPos]? = none → step s = .next { s with turns := r })

/-- R262: a pending command completes, is discarded by a reset, or the run faults, after finitely many steps: at most the
turns that are left, then the free delay, then one. The delay is the model's free value (log entry 17), whatever it is. -/
def Obligations.PendingCommandCompletes : Prop :=
  ∀ s : State, s.faulted = none →
    ∃ (k : Nat) (t : State), k ≤ s.turns.length + Config.completionDelay s.draws + 1 ∧ runSteps k s = .next t ∧
      (t.pending = none ∨ t.faulted ≠ none)

/-- R78: one round of WAIT, two turns of the host: STATUS is read and recorded, and the program goes on exactly when the
value read has BUSY = 0. That the poll is among the recorded values is the model's choice (log entry 18). -/
def Obligations.WaitPollsBusy : Prop :=
  ∀ (s : State) (r : List Agent), s.faulted = none →
    (∀ k, k < 2 → s.program[s.hostPos + k]? = (hostWait s.hostPos)[k]?) → s.turns = .host :: .host :: r →
    runSteps 2 s =
      .next { s with
        turns := r, recorded := s.recorded ++ [.word s.statusWord],
        hostPos := if s.pending = none then s.hostPos + 2 else s.hostPos }

/-! ### Host transactions -/

/-- R192: a write to CMD with BUSY = 0 stores the word, latches it, sets BUSY and clears ERR and END, whatever the word;
with BUSY = 1 it faults; and no transaction but Reset takes a pending command away. -/
def Obligations.CmdWriteIssues : Prop :=
  (∀ (s : State) (w : Word), s.pending = none →
      perform (.regWrite 32 0x00 w) s = .next { s with cmd := w, pending := some w, err := none, endFlag := false }
        ∧ ∀ t, perform (.regWrite 32 0x00 w) s = .next t → t.busy = true ∧ errField t.err = 0x00)
    ∧ (∀ (s : State) (v w : Word), s.pending = some v → perform (.regWrite 32 0x00 w) s = .fault .writeWhileBusy)
    ∧ (∀ (s t : State) (x : Txn) (w : Word), s.pending = some w → x ≠ .reset → perform x s = .next t →
      t.pending = some w)

/-- R191: a write to a plain RW register stores any value while BUSY = 0 and faults while BUSY = 1; with BUSY = 0 a write to
an RO register faults with WriteToReadOnly, and a write at any other offset or width with BadRegisterAccess. A write of
another width to an RO register meets both of the last two, and here is one of them (WrongWidthWriteToReadOnly: which). -/
def Obligations.RegisterWrites : Prop :=
  (∀ (s : State) (v : Word), s.pending = none →
      perform (.regWrite 32 0x08 v) s = .next { s with argAddr := v }
        ∧ perform (.regWrite 32 0x0C v) s = .next { s with argLen := v }
        ∧ perform (.regWrite 32 0x10 v) s = .next { s with tagIn := v }
        ∧ perform (.regWrite 32 0x34 v) s = .next { s with outPtr := v })
    ∧ (∀ (s : State) (v w : Word) (off : Nat), s.pending = some w → off ∈ [0x08, 0x0C, 0x10, 0x34] →
      perform (.regWrite 32 off v) s = .fault .writeWhileBusy)
    ∧ (∀ (s : State) (v : Word) (off : Nat), s.pending = none →
      off ∈ [0x04, 0x14, 0x18, 0x1C, 0x20, 0x24, 0x28, 0x2C, 0x30, 0x38, 0x3C, 0x40] →
      perform (.regWrite 32 off v) s = .fault .writeToReadOnly)
    ∧ (∀ (s : State) (v : Word) (width off : Nat), s.pending = none →
      off ∉ [0x04, 0x14, 0x18, 0x1C, 0x20, 0x24, 0x28, 0x2C, 0x30, 0x38, 0x3C, 0x40] →
      (width ≠ 32 ∨ off % 4 ≠ 0 ∨ 0x44 ≤ off) → perform (.regWrite width off v) s = .fault .badRegisterAccess)
    ∧ (∀ (s : State) (v : Word) (width off : Nat), s.pending = none →
      off ∈ [0x04, 0x14, 0x18, 0x1C, 0x20, 0x24, 0x28, 0x2C, 0x30, 0x38, 0x3C, 0x40] → width ≠ 32 →
      perform (.regWrite width off v) s ∈ [.fault .writeToReadOnly, .fault .badRegisterAccess])

/-- R61, R232: while a command is pending every register write faults, at any offset, of any width and value, and so does
every IbufWrite. That the fault is WriteWhileBusy also where the write meets a second fault is the model's reading (log
entry 8). -/
def Obligations.EveryWriteWhileBusyFaults : Prop :=
  ∀ (s : State) (w : Word), s.pending = some w →
    (∀ (width off : Nat) (v : Word), perform (.regWrite width off v) s = .fault .writeWhileBusy)
      ∧ ∀ (a : Nat) (b : Byte), perform (.ibufWrite a b) s = .fault .writeWhileBusy

/-- Log entry 16, where R191 and R232 give two faults and no order: with BUSY = 0 a write of another width than 32 bits to an
RO register is BadRegisterAccess. The order is the model's choice. -/
def Obligations.WrongWidthWriteToReadOnly : Prop :=
  ∀ (s : State) (v : Word) (width off : Nat), s.pending = none →
    off ∈ [0x04, 0x14, 0x18, 0x1C, 0x20, 0x24, 0x28, 0x2C, 0x30, 0x38, 0x3C, 0x40] → width ≠ 32 →
    perform (.regWrite width off v) s = .fault .badRegisterAccess

/-- R193 with the map of R21 and the derived registers of R29 and R30: every register reads as its value, whatever BUSY is,
and the read changes nothing but the host's record; any other offset or width faults; and while a command is pending every
register but CMD and STATUS reads as before the CMD write. -/
def Obligations.RegisterReads : Prop :=
  (∀ (s : State) (off : Nat) (v : Word),
      (off, v) ∈ [(0x00, s.cmd), (0x04, s.statusWord), (0x08, s.argAddr), (0x0C, s.argLen), (0x10, s.tagIn),
        (0x14, s.tag), (0x18, if s.tagValid then flagsWord s.tag else 0), (0x1C, s.chType),
        (0x20, if s.chValid then flagsWord s.chType else 0), (0x24, s.chPoff), (0x28, s.chLen), (0x2C, s.chCrc),
        (0x30, ~~~ s.crcAcc), (0x34, s.outPtr), (0x38, s.stCur), (0x3C, s.stEnd), (0x40, s.stCount)] →
      perform (.regRead 32 off) s = .next { s with recorded := s.recorded ++ [.word v] })
    ∧ (∀ (s : State) (width off : Nat), (width ≠ 32 ∨ off % 4 ≠ 0 ∨ 0x44 ≤ off) →
      perform (.regRead width off) s = .fault .badRegisterAccess)
    ∧ (∀ (s t : State) (w : Word) (r : Reg), s.pending = none → perform (.regWrite 32 0x00 w) s = .next t →
      r ≠ .cmd → r ≠ .status → t.regValue r = s.regValue r)

/-- R194: IbufWrite inside IBUF with BUSY = 0 sets that one cell and changes nothing else; while BUSY = 1, or outside IBUF,
it faults; and but for a Reset no other transaction changes IBUF. -/
def Obligations.IbufWriteSetsOneCell : Prop :=
  (∀ (s : State) (a : Nat) (b : Byte), s.pending = none → a < s.cfg.ibufSize →
      ∃ t, perform (.ibufWrite a b) s = .next t ∧ t = { s with ibuf := t.ibuf } ∧ memLookup t.ibuf a = some b ∧
        ∀ x, x ≠ a → memLookup t.ibuf x = memLookup s.ibuf x)
    ∧ (∀ (s : State) (w : Word) (a : Nat) (b : Byte), s.pending = some w →
      perform (.ibufWrite a b) s = .fault .writeWhileBusy)
    ∧ (∀ (s : State) (a : Nat) (b : Byte), s.pending = none → s.cfg.ibufSize ≤ a →
      perform (.ibufWrite a b) s = .fault .bufferAddress)
    ∧ (∀ (s t : State) (x : Txn), perform x s = .next t → (∀ a b, x ≠ .ibufWrite a b) → x ≠ .reset → t.ibuf = s.ibuf)

/-- R195, R196: a byte read of a written cell records it, whatever BUSY is; an unwritten cell faults with UnwrittenRead and
an address at or above the buffer's size with BufferAddress; and while a command is pending both buffers are as before the
CMD write. -/
def Obligations.BufferReads : Prop :=
  (∀ (s : State) (a : Nat) (b : Byte), a < s.cfg.ibufSize → memLookup s.ibuf a = some b →
      perform (.ibufRead a) s = .next { s with recorded := s.recorded ++ [.byte b] })
    ∧ (∀ (s : State) (a : Nat), a < s.cfg.ibufSize → memLookup s.ibuf a = none →
      perform (.ibufRead a) s = .fault .unwrittenRead)
    ∧ (∀ (s : State) (a : Nat), s.cfg.ibufSize ≤ a → perform (.ibufRead a) s = .fault .bufferAddress)
    ∧ (∀ (s : State) (a : Nat) (b : Byte), a < s.cfg.obufSize → memLookup s.obuf a = some b →
      perform (.obufRead a) s = .next { s with recorded := s.recorded ++ [.byte b] })
    ∧ (∀ (s : State) (a : Nat), a < s.cfg.obufSize → memLookup s.obuf a = none →
      perform (.obufRead a) s = .fault .unwrittenRead)
    ∧ (∀ (s : State) (a : Nat), s.cfg.obufSize ≤ a → perform (.obufRead a) s = .fault .bufferAddress)
    ∧ (∀ (s t : State) (w : Word), perform (.regWrite 32 0x00 w) s = .next t →
      t.busy = true ∧ t.ibuf = s.ibuf ∧ t.obuf = s.obuf)

/-- R57, R203: no read changes the block; no host transaction but Reset writes TAG, the descriptor, CH_CRC, CRC_ACC, the
stream state, OBUF or a valid bit; and no transaction changes the sizes. -/
def Obligations.HostTransactionFrame : Prop :=
  (∀ (s t : State) (x : Txn), perform x s = .next t →
      ((∃ width off, x = .regRead width off) ∨ (∃ a, x = .ibufRead a) ∨ (∃ a, x = .obufRead a)) →
      t = { s with recorded := t.recorded })
    ∧ (∀ (s t : State) (x : Txn), perform x s = .next t → x ≠ .reset →
      t = { s with
        cmd := t.cmd, pending := t.pending, err := t.err, endFlag := t.endFlag, argAddr := t.argAddr,
        argLen := t.argLen, tagIn := t.tagIn, outPtr := t.outPtr, ibuf := t.ibuf, recorded := t.recorded })
    ∧ (∀ (s t : State) (x : Txn), perform x s = .next t → t.cfg = s.cfg)

/-! ### Reset -/

/-- R251: the state after reset, for any sizes. Every register reads 0, CRC_ACC is 0xFFFFFFFF, nothing is pending, and every
cell of both buffers is unwritten. -/
def Obligations.ResetState : Prop :=
  ∀ c : Config,
    (∀ r : Reg, (State.resetWith c).regValue r = 0)
      ∧ (State.resetWith c).crcAcc = 0xFFFFFFFF#32
      ∧ (State.resetWith c).pending = none
      ∧ (∀ x, memLookup (State.resetWith c).ibuf x = none ∧ memLookup (State.resetWith c).obuf x = none)
      ∧ (State.resetWith c).busy = false ∧ (State.resetWith c).endFlag = false
      ∧ (State.resetWith c).tagValid = false ∧ (State.resetWith c).chValid = false
      ∧ (State.resetWith c).stActive = false ∧ errField (State.resetWith c).err = 0x00

/-- R197, R250, R252, R254: Reset may happen at any time; it gives the block the state of R251, so a pending command is gone
with every trace of it; only the fault mark stays. That what is not the block's stays too (the sizes, the host's program, position and record, and
the schedule) is the model's reading (log entry 15). -/
def Obligations.ResetTransaction : Prop :=
  ∀ s : State, perform .reset s = .next
    { State.resetWith s.cfg with
      faulted := s.faulted, program := s.program, hostPos := s.hostPos, recorded := s.recorded, turns := s.turns,
      draws := s.draws }

/-! ### CRC-32 generator -/

/-- R125: CRC_INIT always completes, sets CRC_ACC to all ones and nothing else, so CRC_OUT reads 0; it is idempotent, and
reset gives CRC_ACC the same value. -/
def Obligations.CrcInitRule : Prop :=
  decode 0x00000001#32 = .ok .crcInit
    ∧ (∀ s : State, exec .crcInit s = .next (afterSuccess { s with crcAcc := 0xFFFFFFFF#32 }))
    ∧ (∀ s t : State, exec .crcInit s = .next t → t.regValue .crcOut = 0 ∧ exec .crcInit t = .next t)
    ∧ (∀ c : Config, (State.resetWith c).crcAcc = 0xFFFFFFFF#32)

/-- R126: CRC_FEED over a written range inside IBUF applies the byte step of R121 to CRC_ACC for each byte in order and
changes nothing else (no byte: CRC_ACC as before); a range that leaves IBUF reports RangeError with CRC_ACC unchanged; an
unwritten byte faults. -/
def Obligations.CrcFeedRule : Prop :=
  decode 0x00000002#32 = .ok .crcFeed
    ∧ (∀ (s : State) (bs : List Byte), s.argAddr.toNat + s.argLen.toNat ≤ s.cfg.ibufSize →
      bs.length = s.argLen.toNat → Holds s.ibuf s.argAddr.toNat bs →
      exec .crcFeed s = .next (afterSuccess { s with crcAcc := bs.foldl crcStep s.crcAcc }))
    ∧ (∀ s : State, s.argAddr.toNat ≤ s.cfg.ibufSize → s.argLen = 0 →
      exec .crcFeed s = .next (afterSuccess s))
    ∧ (∀ s : State, s.cfg.ibufSize < s.argAddr.toNat + s.argLen.toNat →
      exec .crcFeed s = .next (afterError .rangeError s))
    ∧ (∀ s : State, s.argAddr.toNat + s.argLen.toNat ≤ s.cfg.ibufSize →
      Unwritten s.ibuf s.argAddr.toNat s.argLen.toNat → exec .crcFeed s = .fault .unwrittenRead)
    ∧ (∀ (s t : State) (n : Word), s.cfg.Wf → exec .crcFeed s = .next t → t.err = none → n.toNat ≤ s.argLen.toNat →
      ∃ u v, exec .crcFeed { s with argLen := n } = .next u ∧ u.err = none
        ∧ exec .crcFeed { u with argAddr := s.argAddr + n, argLen := s.argLen - n } = .next v ∧ v.err = none
        ∧ v.crcAcc = t.crcAcc)

/-- R127: CRC_OUT reads the CRC32 of the bytes fed since CRC_INIT. After CRC_INIT that is the empty sequence; a CRC_FEED that
succeeds appends the bytes it read; and reading CRC_OUT leaves CRC_ACC alone. -/
def Obligations.CrcOutTracksFedBytes : Prop :=
  (∀ s t : State, exec .crcInit s = .next t → t.regValue .crcOut = crc32 [])
    ∧ (∀ (s t : State) (xs : List Byte), s.regValue .crcOut = crc32 xs → exec .crcFeed s = .next t → t.err = none →
      ∃ bs, bs.length = s.argLen.toNat ∧ Holds s.ibuf s.argAddr.toNat bs ∧ t.regValue .crcOut = crc32 (xs ++ bs))
    ∧ (∀ s t : State, perform (.regRead 32 0x30) s = .next t → t.crcAcc = s.crcAcc)

/-- R123: the table-driven form of the byte step computes the same function, and five entries of the table. -/
def Obligations.CrcTableForm : Prop :=
  (∀ (c : Word) (b : Byte), crcStep c b = (c >>> 8) ^^^ crcStep ((c ^^^ b.setWidth 32) &&& 0xFF#32) 0#8)
    ∧ crcStep 0x00#32 0#8 = 0x00000000#32 ∧ crcStep 0x01#32 0#8 = 0x77073096#32
    ∧ crcStep 0x02#32 0#8 = 0xEE0E612C#32 ∧ crcStep 0x80#32 0#8 = 0xEDB88320#32
    ∧ crcStep 0xFF#32 0#8 = 0x2D02EF8D#32

/-- R124, law 2 (affinity): for equal lengths, CRC32 of the bytewise exclusive-or is the exclusive-or of the CRC32s and of
the CRC32 of as many zero bytes. -/
def Obligations.CrcAffine : Prop :=
  ∀ x y : List Byte, x.length = y.length →
    crc32 (List.zipWith (· ^^^ ·) x y) = crc32 x ^^^ crc32 y ^^^ crc32 (List.replicate x.length 0#8)

/-- R124, law 3 (single-bit sensitivity): flipping any one bit of the input changes the CRC32. -/
def Obligations.CrcSingleBitSensitivity : Prop :=
  ∀ (bs : List Byte) (k j : Nat) (b : Byte), bs[k]? = some b → j < 8 →
    crc32 (bs.set k (b ^^^ (1#8 <<< j))) ≠ crc32 bs

/-- R128: the accumulator and the chunk CRC are independent. No chunk command reads or writes CRC_ACC, none reads the old
CH_CRC, and no CRC command reads or writes CH_CRC. -/
def Obligations.CrcUnitsIndependent : Prop :=
  (∀ (i : Instr) (s t : State) (x : Word), i ∈ [.chunkCrc, .chunkSerialize, .chunkParse, .streamNext] →
      exec i s = .next t →
      t.crcAcc = s.crcAcc ∧ exec i { s with crcAcc := x } = .next { t with crcAcc := x })
    ∧ (∀ (i : Instr) (s t : State) (x : Word), i ∈ [.chunkCrc, .chunkSerialize, .chunkParse, .streamNext] →
      exec i s = .next t → t.err = none → t.endFlag = false → exec i { s with chCrc := x } = .next t)
    ∧ (∀ (i : Instr) (s t : State) (x : Word), i ∈ [.crcInit, .crcFeed] → exec i s = .next t →
      t.chCrc = s.chCrc ∧ exec i { s with chCrc := x } = .next { t with chCrc := x })

/-! ### Flag decoder -/

/-- R103, with R101: each bit of the flag word of a tag register value, from the case bits of its four bytes; bits 31:5 are 0
and bit 4 equals bit 2. -/
def Obligations.FlagWordBits : Prop :=
  ∀ v : Word,
    (flagsWord v).getLsbD 0 = !(wordByte v 0).getLsbD 5
      ∧ (flagsWord v).getLsbD 1 = !(wordByte v 1).getLsbD 5
      ∧ (flagsWord v).getLsbD 2 = !(wordByte v 2).getLsbD 5
      ∧ (flagsWord v).getLsbD 3 = (wordByte v 3).getLsbD 5
      ∧ (flagsWord v).getLsbD 4 = (flagsWord v).getLsbD 2
      ∧ (flagsWord v).extractLsb' 5 27 = 0

/-- R105: TAG_CONSTRUCT takes TAG_IN as the tag when its four bytes are letters, and otherwise reports InvalidByte and keeps
the tag it had. -/
def Obligations.TagConstructRule : Prop :=
  decode 0x00000010#32 = .ok .tagConstruct
    ∧ (∀ s : State, LetterTag s.tagIn →
      exec .tagConstruct s = .next (afterSuccess { s with tag := s.tagIn, tagValid := true }))
    ∧ (∀ s : State, ¬ LetterTag s.tagIn → exec .tagConstruct s = .next (afterError .invalidByte s))

/-- R106: TAG_PARSE, its checks in their order: RangeError, InvalidLength without reading a byte, the read of four bytes,
InvalidByte, and on success the tag in wire order. -/
def Obligations.TagParseRule : Prop :=
  decode 0x00000011#32 = .ok .tagParse
    ∧ (∀ s : State, s.cfg.ibufSize < s.argAddr.toNat + s.argLen.toNat →
      exec .tagParse s = .next (afterError .rangeError s))
    ∧ (∀ s : State, s.argAddr.toNat + s.argLen.toNat ≤ s.cfg.ibufSize → s.argLen ≠ 4 →
      exec .tagParse s = .next (afterError .invalidLength s))
    ∧ (∀ s : State, s.argAddr.toNat + 4 ≤ s.cfg.ibufSize → s.argLen = 4 → Unwritten s.ibuf s.argAddr.toNat 4 →
      exec .tagParse s = .fault .unwrittenRead)
    ∧ (∀ (s : State) (v : Word), s.argAddr.toNat + 4 ≤ s.cfg.ibufSize → s.argLen = 4 →
      Holds s.ibuf s.argAddr.toNat (wordBytes v) → ¬ LetterTag v →
      exec .tagParse s = .next (afterError .invalidByte s))
    ∧ (∀ (s : State) (v : Word), s.argAddr.toNat + 4 ≤ s.cfg.ibufSize → s.argLen = 4 →
      Holds s.ibuf s.argAddr.toNat (wordBytes v) → LetterTag v →
      exec .tagParse s = .next (afterSuccess { s with tag := v, tagValid := true }))

/-! ### Chunk framer -/

/-- R141: CHUNK_SET takes the tag and the range as the descriptor, whatever the flags of the tag and whether or not the
payload is written; it reports NoTag, then RangeError, and keeps the descriptor on an error. CH_CRC is not written, and the
type is a copy: a later tag command leaves it. -/
def Obligations.ChunkSetRule : Prop :=
  decode 0x00000020#32 = .ok .chunkSet
    ∧ (∀ s : State, s.tagValid = false → exec .chunkSet s = .next (afterError .noTag s))
    ∧ (∀ s : State, s.tagValid = true → s.cfg.ibufSize < s.argAddr.toNat + s.argLen.toNat →
      exec .chunkSet s = .next (afterError .rangeError s))
    ∧ (∀ s : State, s.tagValid = true → s.argAddr.toNat + s.argLen.toNat ≤ s.cfg.ibufSize →
      exec .chunkSet s =
        .next (afterSuccess { s with chType := s.tag, chPoff := s.argAddr, chLen := s.argLen, chValid := true }))
    ∧ (∀ (i : Instr) (s t : State), i ∈ [.tagConstruct, .tagParse] → exec i s = .next t →
      t.chType = s.chType ∧ t.chPoff = s.chPoff ∧ t.chLen = s.chLen ∧ t.chValid = s.chValid)

/-- R142: CHUNK_CRC computes CRC32 over the descriptor's type bytes and its payload as IBUF holds it now, and writes CH_CRC
only; it reports NoChunk; an unwritten payload byte faults. -/
def Obligations.ChunkCrcRule : Prop :=
  decode 0x00000021#32 = .ok .chunkCrc
    ∧ (∀ s : State, s.chValid = false → exec .chunkCrc s = .next (afterError .noChunk s))
    ∧ (∀ (s : State) (p : List Byte), s.chValid = true → s.chPoff.toNat + s.chLen.toNat ≤ s.cfg.ibufSize →
      p.length = s.chLen.toNat → Holds s.ibuf s.chPoff.toNat p →
      exec .chunkCrc s = .next (afterSuccess { s with chCrc := crc32 (wordBytes s.chType ++ p) }))
    ∧ (∀ s : State, s.chValid = true → s.chPoff.toNat + s.chLen.toNat ≤ s.cfg.ibufSize →
      Unwritten s.ibuf s.chPoff.toNat s.chLen.toNat → exec .chunkCrc s = .fault .unwrittenRead)

/-- R143: CHUNK_SERIALIZE writes the record LENGTH, TYPE, DATA, CRC to OBUF at OUT_PTR, advances OUT_PTR by its size without
wrapping, sets CH_CRC, and changes nothing else; it reports NoChunk, then OutputOverflow before any payload byte is read; an
unwritten payload byte faults. -/
def Obligations.ChunkSerializeRule : Prop :=
  decode 0x00000022#32 = .ok .chunkSerialize
    ∧ (∀ s : State, s.chValid = false → exec .chunkSerialize s = .next (afterError .noChunk s))
    ∧ (∀ s : State, s.chValid = true → s.cfg.obufSize < s.outPtr.toNat + 12 + s.chLen.toNat →
      exec .chunkSerialize s = .next (afterError .outputOverflow s))
    ∧ (∀ (s : State) (p : List Byte), s.cfg.Wf → s.chValid = true →
      s.outPtr.toNat + 12 + s.chLen.toNat ≤ s.cfg.obufSize →
      s.chPoff.toNat + s.chLen.toNat ≤ s.cfg.ibufSize → p.length = s.chLen.toNat → Holds s.ibuf s.chPoff.toNat p →
      ∃ t, exec .chunkSerialize s = .next t
        ∧ t = afterSuccess
            { s with obuf := t.obuf, outPtr := t.outPtr, chCrc := crc32 (wordBytes s.chType ++ p) }
        ∧ t.outPtr.toNat = s.outPtr.toNat + 12 + s.chLen.toNat
        ∧ Holds t.obuf s.outPtr.toNat (recordBytes s.chLen s.chType p (crc32 (wordBytes s.chType ++ p)))
        ∧ ∀ x, (x < s.outPtr.toNat ∨ s.outPtr.toNat + 12 + s.chLen.toNat ≤ x) →
            memLookup t.obuf x = memLookup s.obuf x)
    ∧ (∀ s : State, s.chValid = true → s.outPtr.toNat + 12 + s.chLen.toNat ≤ s.cfg.obufSize →
      s.chPoff.toNat + s.chLen.toNat ≤ s.cfg.ibufSize → Unwritten s.ibuf s.chPoff.toNat s.chLen.toNat →
      exec .chunkSerialize s = .fault .unwrittenRead)

/-- R144, R145: CHUNK_PARSE on the range of `n = ARG_LEN` bytes at ARG_ADDR, its checks in their order: RangeError;
LengthMismatch below 4 bytes, and when LENGTH plus 12, without wrapping, is not `n`; InvalidChunkType; InvalidCrc; and on
success the descriptor and CH_CRC. A byte a check needs and that is unwritten faults. -/
def Obligations.ChunkParseRule : Prop :=
  decode 0x00000023#32 = .ok .chunkParse
    ∧ (∀ s : State, s.cfg.ibufSize < s.argAddr.toNat + s.argLen.toNat →
      exec .chunkParse s = .next (afterError .rangeError s))
    ∧ (∀ s : State, s.argAddr.toNat + s.argLen.toNat ≤ s.cfg.ibufSize → s.argLen.toNat < 4 →
      exec .chunkParse s = .next (afterError .lengthMismatch s))
    ∧ (∀ (s : State) (l : Word), s.argAddr.toNat + s.argLen.toNat ≤ s.cfg.ibufSize → 4 ≤ s.argLen.toNat →
      Holds s.ibuf s.argAddr.toNat (wordBytes l) → s.argLen.toNat ≠ l.toNat + 12 →
      exec .chunkParse s = .next (afterError .lengthMismatch s))
    ∧ (∀ (s : State) (l ty : Word), s.argAddr.toNat + s.argLen.toNat ≤ s.cfg.ibufSize →
      s.argLen.toNat = l.toNat + 12 → Holds s.ibuf s.argAddr.toNat (wordBytes l ++ wordBytes ty) → ¬ LetterTag ty →
      exec .chunkParse s = .next (afterError .invalidChunkType s))
    ∧ (∀ (s : State) (l ty w : Word) (p : List Byte), s.argAddr.toNat + s.argLen.toNat ≤ s.cfg.ibufSize →
      s.argLen.toNat = l.toNat + 12 → p.length = l.toNat → Holds s.ibuf s.argAddr.toNat (recordBytes l ty p w) →
      LetterTag ty → w ≠ crc32 (wordBytes ty ++ p) →
      exec .chunkParse s = .next (afterError .invalidCrc s))
    ∧ (∀ (s : State) (l ty w : Word) (p : List Byte), s.argAddr.toNat + s.argLen.toNat ≤ s.cfg.ibufSize →
      s.argLen.toNat = l.toNat + 12 → p.length = l.toNat → Holds s.ibuf s.argAddr.toNat (recordBytes l ty p w) →
      LetterTag ty → w = crc32 (wordBytes ty ++ p) →
      exec .chunkParse s =
        .next (afterSuccess
          { s with chType := ty, chPoff := s.argAddr + 8, chLen := l, chCrc := w, chValid := true }))
    ∧ (∀ s : State, s.argAddr.toNat + s.argLen.toNat ≤ s.cfg.ibufSize → 4 ≤ s.argLen.toNat →
      Unwritten s.ibuf s.argAddr.toNat 4 → exec .chunkParse s = .fault .unwrittenRead)
    ∧ (∀ (s : State) (l : Word), s.argAddr.toNat + s.argLen.toNat ≤ s.cfg.ibufSize →
      s.argLen.toNat = l.toNat + 12 → Holds s.ibuf s.argAddr.toNat (wordBytes l) →
      Unwritten s.ibuf (s.argAddr.toNat + 4) 4 → exec .chunkParse s = .fault .unwrittenRead)
    ∧ (∀ (s : State) (l ty : Word), s.argAddr.toNat + s.argLen.toNat ≤ s.cfg.ibufSize →
      s.argLen.toNat = l.toNat + 12 → Holds s.ibuf s.argAddr.toNat (wordBytes l ++ wordBytes ty) → LetterTag ty →
      Unwritten s.ibuf (s.argAddr.toNat + 8) (l.toNat + 4) → exec .chunkParse s = .fault .unwrittenRead)

/-- R146: the chunk round trip. After a CHUNK_PARSE of `n` bytes that succeeded, a CHUNK_SERIALIZE of that descriptor with
the range not rewritten and room in OBUF reproduces the `n` bytes. -/
def Obligations.ChunkRoundTrip : Prop :=
  ∀ s t u : State, s.cfg.Wf → exec .chunkParse s = .next t → t.err = none →
    u.cfg = s.cfg → u.chValid = true → u.chType = t.chType → u.chPoff = t.chPoff → u.chLen = t.chLen →
    (∀ k, k < s.argLen.toNat → memLookup u.ibuf (s.argAddr.toNat + k) = memLookup s.ibuf (s.argAddr.toNat + k)) →
    u.outPtr.toNat + s.argLen.toNat ≤ u.cfg.obufSize →
    ∃ v, exec .chunkSerialize u = .next v ∧ v.err = none
      ∧ v.outPtr.toNat = u.outPtr.toNat + s.argLen.toNat
      ∧ ∀ k, k < s.argLen.toNat →
          ∃ b, memLookup v.obuf (u.outPtr.toNat + k) = some b ∧ memLookup s.ibuf (s.argAddr.toNat + k) = some b

/-- R124 law 3 with R145, R149: when CHUNK_PARSE accepts a record, the record with any single bit flipped, in LENGTH, TYPE,
DATA or CRC, is rejected with an error. -/
def Obligations.ParseRejectsEverySingleBitFlip : Prop :=
  ∀ (s t : State) (k j : Nat) (b : Byte), exec .chunkParse s = .next t → t.err = none →
    k < s.argLen.toNat → j < 8 → memLookup s.ibuf (s.argAddr.toNat + k) = some b →
    ∃ e, e ∈ [.lengthMismatch, .invalidChunkType, .invalidCrc]
      ∧ exec .chunkParse { s with ibuf := memWrite s.ibuf (s.argAddr.toNat + k) (b ^^^ (1#8 <<< j)) }
          = .next (afterError e { s with ibuf := memWrite s.ibuf (s.argAddr.toNat + k) (b ^^^ (1#8 <<< j)) })

/-- R66, R257: the descriptor refers to IBUF. After an IbufWrite into the payload, CHUNK_CRC gives the CRC32 of the type
and the payload with that byte replaced. -/
def Obligations.ChunkCrcFollowsIbuf : Prop :=
  ∀ (s t : State) (p : List Byte) (k : Nat) (b : Byte), s.chValid = true →
    s.chPoff.toNat + s.chLen.toNat ≤ s.cfg.ibufSize → p.length = s.chLen.toNat → Holds s.ibuf s.chPoff.toNat p →
    k < p.length → perform (.ibufWrite (s.chPoff.toNat + k) b) s = .next t →
    ∃ u, exec .chunkCrc t = .next u ∧ u.chCrc = crc32 (wordBytes s.chType ++ p.set k b)

/-! ### Stream framer -/

/-- R171: STREAM_OPEN, its checks in their order: RangeError; InvalidSignature below 8 bytes without reading one; the read of
8 bytes; InvalidSignature; and on success the stream state, replacing an open stream. On an error the stream state is kept. -/
def Obligations.StreamOpenRule : Prop :=
  decode 0x00000030#32 = .ok .streamOpen
    ∧ (∀ s : State, s.cfg.ibufSize < s.argAddr.toNat + s.argLen.toNat →
      exec .streamOpen s = .next (afterError .rangeError s))
    ∧ (∀ s : State, s.argAddr.toNat + s.argLen.toNat ≤ s.cfg.ibufSize → s.argLen.toNat < 8 →
      exec .streamOpen s = .next (afterError .invalidSignature s))
    ∧ (∀ s : State, s.argAddr.toNat + s.argLen.toNat ≤ s.cfg.ibufSize → 8 ≤ s.argLen.toNat →
      Unwritten s.ibuf s.argAddr.toNat 8 → exec .streamOpen s = .fault .unwrittenRead)
    ∧ (∀ (s : State) (bs : List Byte), s.argAddr.toNat + s.argLen.toNat ≤ s.cfg.ibufSize → 8 ≤ s.argLen.toNat →
      bs.length = 8 → Holds s.ibuf s.argAddr.toNat bs →
      bs ≠ [0x89#8, 0x50#8, 0x4E#8, 0x47#8, 0x0D#8, 0x0A#8, 0x1A#8, 0x0A#8] →
      exec .streamOpen s = .next (afterError .invalidSignature s))
    ∧ (∀ s : State, s.argAddr.toNat + s.argLen.toNat ≤ s.cfg.ibufSize → 8 ≤ s.argLen.toNat →
      Holds s.ibuf s.argAddr.toNat [0x89#8, 0x50#8, 0x4E#8, 0x47#8, 0x0D#8, 0x0A#8, 0x1A#8, 0x0A#8] →
      exec .streamOpen s =
        .next (afterSuccess
          { s with stCur := s.argAddr + 8, stEnd := s.argAddr + s.argLen, stCount := 0, stActive := true }))

/-- R172, R177: STREAM_NEXT in a state that meets the invariants, its checks in their order: StreamNotOpen; END at exhaustion;
LengthMismatch when the rest cannot hold the next chunk; InvalidChunkType; InvalidCrc; and on delivery the descriptor, CH_CRC,
the advanced cursor and the count, which does not wrap. Each error but the first closes the stream and changes nothing else;
after that, and after exhaustion, the stream is not open. A byte a check needs and that is unwritten faults. -/
def Obligations.StreamNextRule : Prop :=
  decode 0x00000031#32 = .ok .streamNext
    ∧ (∀ s : State, s.stActive = false → exec .streamNext s = .next (afterError .streamNotOpen s))
    ∧ (∀ s : State, s.stActive = true → s.stCur = s.stEnd →
      exec .streamNext s = .next { s with stActive := false, endFlag := true, err := none, pending := none })
    ∧ (∀ s : State, StateInv s → s.stActive = true → s.stCur ≠ s.stEnd → s.stEnd.toNat < s.stCur.toNat + 4 →
      exec .streamNext s = .next (afterError .lengthMismatch { s with stActive := false }))
    ∧ (∀ (s : State) (l : Word), StateInv s → s.stActive = true → s.stCur.toNat + 4 ≤ s.stEnd.toNat →
      Holds s.ibuf s.stCur.toNat (wordBytes l) → s.stEnd.toNat < s.stCur.toNat + 12 + l.toNat →
      exec .streamNext s = .next (afterError .lengthMismatch { s with stActive := false }))
    ∧ (∀ (s : State) (l ty : Word), StateInv s → s.stActive = true → s.stCur.toNat + 12 + l.toNat ≤ s.stEnd.toNat →
      Holds s.ibuf s.stCur.toNat (wordBytes l ++ wordBytes ty) → ¬ LetterTag ty →
      exec .streamNext s = .next (afterError .invalidChunkType { s with stActive := false }))
    ∧ (∀ (s : State) (l ty w : Word) (p : List Byte), StateInv s → s.stActive = true →
      s.stCur.toNat + 12 + l.toNat ≤ s.stEnd.toNat → p.length = l.toNat →
      Holds s.ibuf s.stCur.toNat (recordBytes l ty p w) → LetterTag ty → w ≠ crc32 (wordBytes ty ++ p) →
      exec .streamNext s = .next (afterError .invalidCrc { s with stActive := false }))
    ∧ (∀ (s : State) (l ty w : Word) (p : List Byte), StateInv s → s.stActive = true →
      s.stCur.toNat + 12 + l.toNat ≤ s.stEnd.toNat → p.length = l.toNat →
      Holds s.ibuf s.stCur.toNat (recordBytes l ty p w) → LetterTag ty → w = crc32 (wordBytes ty ++ p) →
      exec .streamNext s =
          .next (afterSuccess
            { s with
              chType := ty, chPoff := s.stCur + 8, chLen := l, chCrc := w, chValid := true,
              stCur := s.stCur + 12 + l, stCount := s.stCount + 1 })
        ∧ (s.stCur + 12 + l).toNat = s.stCur.toNat + 12 + l.toNat
        ∧ (s.stCount + 1).toNat = s.stCount.toNat + 1)
    ∧ (∀ s : State, StateInv s → s.stActive = true → s.stCur.toNat + 4 ≤ s.stEnd.toNat →
      Unwritten s.ibuf s.stCur.toNat 4 → exec .streamNext s = .fault .unwrittenRead)
    ∧ (∀ (s : State) (l : Word), StateInv s → s.stActive = true → s.stCur.toNat + 12 + l.toNat ≤ s.stEnd.toNat →
      Holds s.ibuf s.stCur.toNat (wordBytes l) → Unwritten s.ibuf (s.stCur.toNat + 4) 4 →
      exec .streamNext s = .fault .unwrittenRead)
    ∧ (∀ (s : State) (l ty : Word), StateInv s → s.stActive = true → s.stCur.toNat + 12 + l.toNat ≤ s.stEnd.toNat →
      Holds s.ibuf s.stCur.toNat (wordBytes l ++ wordBytes ty) → LetterTag ty →
      Unwritten s.ibuf (s.stCur.toNat + 8) (l.toNat + 4) → exec .streamNext s = .fault .unwrittenRead)

/-- R173: SIG_EMIT writes the 8 signature bytes to OBUF at OUT_PTR, advances OUT_PTR by 8 without wrapping, and changes
nothing else; without room it reports OutputOverflow and writes nothing. -/
def Obligations.SigEmitRule : Prop :=
  decode 0x00000032#32 = .ok .sigEmit
    ∧ (∀ s : State, s.cfg.obufSize < s.outPtr.toNat + 8 →
      exec .sigEmit s = .next (afterError .outputOverflow s))
    ∧ (∀ s : State, s.cfg.Wf → s.outPtr.toNat + 8 ≤ s.cfg.obufSize →
      ∃ t, exec .sigEmit s = .next t ∧ t = afterSuccess { s with obuf := t.obuf, outPtr := t.outPtr }
        ∧ t.outPtr.toNat = s.outPtr.toNat + 8
        ∧ Holds t.obuf s.outPtr.toNat [0x89#8, 0x50#8, 0x4E#8, 0x47#8, 0x0D#8, 0x0A#8, 0x1A#8, 0x0A#8]
        ∧ ∀ x, (x < s.outPtr.toNat ∨ s.outPtr.toNat + 8 ≤ x) → memLookup t.obuf x = memLookup s.obuf x)

/-- One chunk of R176: after a STREAM_NEXT that delivered a chunk, a CHUNK_SERIALIZE of that descriptor with the stream's
bytes not rewritten and room in OBUF reproduces the bytes the cursor passed over. -/
def Obligations.StreamChunkRoundTrip : Prop :=
  ∀ s t u : State, StateInv s → exec .streamNext s = .next t → t.err = none → t.endFlag = false →
    u.cfg = s.cfg → u.chValid = true → u.chType = t.chType → u.chPoff = t.chPoff → u.chLen = t.chLen →
    (∀ x, s.stCur.toNat ≤ x → x < t.stCur.toNat → memLookup u.ibuf x = memLookup s.ibuf x) →
    u.outPtr.toNat + (t.stCur.toNat - s.stCur.toNat) ≤ u.cfg.obufSize →
    s.stCur.toNat + 12 ≤ t.stCur.toNat
      ∧ ∃ v, exec .chunkSerialize u = .next v ∧ v.err = none
        ∧ v.outPtr.toNat = u.outPtr.toNat + (t.stCur.toNat - s.stCur.toNat)
        ∧ ∀ k, k < t.stCur.toNat - s.stCur.toNat →
            ∃ b, memLookup v.obuf (u.outPtr.toNat + k) = some b ∧ memLookup s.ibuf (s.stCur.toNat + k) = some b

/-- R174's bound: a container parse ends after at most ⌊rest / 12⌋ + 1 STREAM_NEXT commands, with END or an error and the
stream closed, unless it reads an unwritten cell. -/
def Obligations.ContainerParseEnds : Prop :=
  ∀ (s : State) (k : Nat), StateInv s → s.stActive = true → (s.stEnd.toNat - s.stCur.toNat) / 12 + 1 ≤ k →
    (∃ t, parseStream k s = .next t ∧ t.stActive = false ∧ (t.endFlag = true ∨ t.err ≠ none))
      ∨ parseStream k s = .fault .unwrittenRead

/-- R176: the stream round trip. STREAM_OPEN and SIG_EMIT without an error, a container parse of the `n` bytes that succeeds, and
room in OBUF: then the same sequence with a CHUNK_SERIALIZE right after each delivery succeeds, leaves the `n` bytes of the
stream in OBUF from where SIG_EMIT began, and advances OUT_PTR by `n`. -/
def Obligations.StreamRoundTrip : Prop :=
  ∀ (s t u p : State) (k : Nat), StateInv s → exec .streamOpen s = .next t → t.err = none →
    exec .sigEmit t = .next u → u.err = none →
    parseStream k t = .next p → p.endFlag = true → p.err = none →
    s.outPtr.toNat + s.argLen.toNat ≤ s.cfg.obufSize →
    ∃ v, copyStream k u = .next v ∧ v.endFlag = true ∧ v.err = none
      ∧ v.outPtr.toNat = s.outPtr.toNat + s.argLen.toNat
      ∧ ∀ j, j < s.argLen.toNat →
          ∃ b, memLookup v.obuf (s.outPtr.toNat + j) = some b ∧ memLookup s.ibuf (s.argAddr.toNat + j) = some b

/-! ### What commands leave unchanged -/

/-- R12, with R177: a command that reports an error changes only ERR, END and BUSY, and ST_ACTIVE in the one case of a
STREAM_NEXT that found its stream open. -/
def Obligations.FailedCommandCommitsNothing : Prop :=
  ∀ (i : Instr) (s t : State) (e : CmdError), exec i s = .next t → t.err = some e →
    t = afterError e { s with stActive := t.stActive }
      ∧ (t.stActive = s.stActive ∨ (i = .streamNext ∧ s.stActive = true ∧ t.stActive = false))

/-- R125, R126: what CRC_INIT and CRC_FEED leave unchanged: everything but CRC_ACC, ERR, END and BUSY; every byte of both
buffers reads as before. -/
def Obligations.CrcUnitFrame : Prop :=
  ∀ (i : Instr) (s t : State), i ∈ [.crcInit, .crcFeed] → exec i s = .next t →
    t = { s with crcAcc := t.crcAcc, err := t.err, endFlag := false, pending := none }
      ∧ ∀ x, memLookup t.ibuf x = memLookup s.ibuf x ∧ memLookup t.obuf x = memLookup s.obuf x

/-- R105, R106: what TAG_CONSTRUCT and TAG_PARSE leave unchanged: everything but TAG, TAG_VALID, ERR, END and BUSY; every byte
of both buffers reads as before. -/
def Obligations.TagUnitFrame : Prop :=
  ∀ (i : Instr) (s t : State), i ∈ [.tagConstruct, .tagParse] → exec i s = .next t →
    t = { s with tag := t.tag, tagValid := t.tagValid, err := t.err, endFlag := false, pending := none }
      ∧ (s.tagValid = true → t.tagValid = true)
      ∧ ∀ x, memLookup t.ibuf x = memLookup s.ibuf x ∧ memLookup t.obuf x = memLookup s.obuf x

/-- R141, R142, R144: what CHUNK_SET, CHUNK_CRC and CHUNK_PARSE leave unchanged: CHUNK_SET everything but the descriptor,
CHUNK_CRC everything but CH_CRC, CHUNK_PARSE everything but the descriptor and CH_CRC (and ERR, END, BUSY each); every byte
of both buffers reads as before. -/
def Obligations.ChunkUnitFrame : Prop :=
  (∀ s t : State, exec .chunkSet s = .next t →
      t = { s with chType := t.chType, chPoff := t.chPoff, chLen := t.chLen, chValid := t.chValid, err := t.err,
                   endFlag := false, pending := none })
    ∧ (∀ s t : State, exec .chunkCrc s = .next t →
      t = { s with chCrc := t.chCrc, err := t.err, endFlag := false, pending := none })
    ∧ (∀ s t : State, exec .chunkParse s = .next t →
      t = { s with chType := t.chType, chPoff := t.chPoff, chLen := t.chLen, chValid := t.chValid, chCrc := t.chCrc,
                   err := t.err, endFlag := false, pending := none })
    ∧ (∀ (i : Instr) (s t : State), i ∈ [.chunkSet, .chunkCrc, .chunkParse] → exec i s = .next t →
      ∀ x, memLookup t.ibuf x = memLookup s.ibuf x ∧ memLookup t.obuf x = memLookup s.obuf x)

/-- R143, R173, R67: what the two output commands leave unchanged: everything but OBUF, OUT_PTR, CH_CRC (CHUNK_SERIALIZE only),
ERR, END and BUSY; every byte of IBUF, and every byte of OBUF outside the range written from OUT_PTR, reads as before. -/
def Obligations.OutputFrame : Prop :=
  (∀ s t : State, exec .sigEmit s = .next t →
      t = { s with obuf := t.obuf, outPtr := t.outPtr, err := t.err, endFlag := false, pending := none }
        ∧ ∀ x, (x < s.outPtr.toNat ∨ s.outPtr.toNat + 8 ≤ x) → memLookup t.obuf x = memLookup s.obuf x)
    ∧ (∀ s t : State, exec .chunkSerialize s = .next t →
      t = { s with obuf := t.obuf, outPtr := t.outPtr, chCrc := t.chCrc, err := t.err, endFlag := false,
                   pending := none }
        ∧ ∀ x, (x < s.outPtr.toNat ∨ s.outPtr.toNat + 12 + s.chLen.toNat ≤ x) →
            memLookup t.obuf x = memLookup s.obuf x)
    ∧ (∀ (i : Instr) (s t : State), i ∈ [.sigEmit, .chunkSerialize] → exec i s = .next t →
      ∀ x, memLookup t.ibuf x = memLookup s.ibuf x)

/-- R171, R172: what STREAM_OPEN and STREAM_NEXT leave unchanged: STREAM_OPEN everything but the stream state, STREAM_NEXT
everything but the descriptor, CH_CRC, ST_CUR, ST_COUNT and ST_ACTIVE (and ERR, END, BUSY each); every byte of both buffers
reads as before. -/
def Obligations.StreamUnitFrame : Prop :=
  (∀ s t : State, exec .streamOpen s = .next t →
      t = { s with stCur := t.stCur, stEnd := t.stEnd, stCount := t.stCount, stActive := t.stActive, err := t.err,
                   endFlag := false, pending := none })
    ∧ (∀ s t : State, exec .streamNext s = .next t →
      t = { s with chType := t.chType, chPoff := t.chPoff, chLen := t.chLen, chValid := t.chValid, chCrc := t.chCrc,
                   stCur := t.stCur, stCount := t.stCount, stActive := t.stActive, err := t.err,
                   endFlag := t.endFlag, pending := none })
    ∧ (∀ (i : Instr) (s t : State), i ∈ [.streamOpen, .streamNext] → exec i s = .next t →
      ∀ x, memLookup t.ibuf x = memLookup s.ibuf x ∧ memLookup t.obuf x = memLookup s.obuf x)

/-- R23, R24, R37: no step changes the sizes; and a step in which the engine moves never writes CMD, ARG_ADDR, ARG_LEN, TAG_IN
or IBUF, nor the host's program, position or record. -/
def Obligations.EngineNeverWritesOperands : Prop :=
  (∀ s t : State, step s = .next t → t.cfg = s.cfg)
    ∧ (∀ s t : State, step s = .next t → s.mover = .engine →
      t.cmd = s.cmd ∧ t.argAddr = s.argAddr ∧ t.argLen = s.argLen ∧ t.tagIn = s.tagIn ∧ t.ibuf = s.ibuf
        ∧ t.program = s.program ∧ t.hostPos = s.hostPos ∧ t.recorded = s.recorded)

/-- R226: the outcomes each command can report, and no others. -/
def Obligations.OutcomesOfEachCommand : Prop :=
  (∀ s t : State, exec .crcInit s = .next t → t.err = none)
    ∧ (∀ s t : State, exec .crcFeed s = .next t → t.err ∈ [none, some .rangeError])
    ∧ (∀ s t : State, exec .tagConstruct s = .next t → t.err ∈ [none, some .invalidByte])
    ∧ (∀ s t : State, exec .tagParse s = .next t →
      t.err ∈ [none, some .rangeError, some .invalidLength, some .invalidByte])
    ∧ (∀ s t : State, exec .chunkSet s = .next t → t.err ∈ [none, some .noTag, some .rangeError])
    ∧ (∀ s t : State, exec .chunkCrc s = .next t → t.err ∈ [none, some .noChunk])
    ∧ (∀ s t : State, exec .chunkSerialize s = .next t → t.err ∈ [none, some .noChunk, some .outputOverflow])
    ∧ (∀ s t : State, exec .chunkParse s = .next t →
      t.err ∈ [none, some .rangeError, some .lengthMismatch, some .invalidChunkType, some .invalidCrc])
    ∧ (∀ s t : State, exec .streamOpen s = .next t → t.err ∈ [none, some .rangeError, some .invalidSignature])
    ∧ (∀ s t : State, exec .streamNext s = .next t →
      t.err ∈ [none, some .streamNotOpen, some .lengthMismatch, some .invalidChunkType, some .invalidCrc])
    ∧ (∀ s t : State, exec .sigEmit s = .next t → t.err ∈ [none, some .outputOverflow])

/-- R22, R223: an error is not sticky. What a command does depends neither on STATUS.ERR, nor on STATUS.END, nor on CMD's stored
value: it answers the same as if they read otherwise (CMD keeps its stored value). -/
def Obligations.CommandsIgnoreErrEndAndCmd : Prop :=
  ∀ (i : Instr) (s : State) (e : Option CmdError) (b : Bool) (w : Word),
    exec i { s with err := e, endFlag := b } = exec i s
      ∧ ∀ t, exec i s = .next t → exec i { s with cmd := w } = .next { t with cmd := w }

/-- R22: END is 1 after a command exactly when it was a STREAM_NEXT that found its open stream exhausted. In a state that
meets the invariants that is ST_CUR = ST_END; that a cursor past the end counts as exhausted in other states is the model's
choice (log entry 7). -/
def Obligations.EndOnlyAtExhaustion : Prop :=
  ∀ (i : Instr) (s t : State), exec i s = .next t →
    (t.endFlag = true ↔ i = .streamNext ∧ s.stActive = true ∧ s.stEnd.toNat ≤ s.stCur.toNat)
      ∧ (t.endFlag = true → t.err = none ∧ t.stActive = false) ∧ t.pending = none
      ∧ (StateInv s → (t.endFlag = true ↔ i = .streamNext ∧ s.stActive = true ∧ s.stCur = s.stEnd))

/-- R59, R232: in a state that meets the invariants a command completes, or it reads an unwritten cell; it never reads outside
IBUF and never stops for another reason. The commands that read no buffer always complete, in any state. -/
def Obligations.CommandsCompleteOrReadUnwritten : Prop :=
  (∀ (i : Instr) (s : State), StateInv s → (∃ t, exec i s = .next t) ∨ exec i s = .fault .unwrittenRead)
    ∧ (∀ (i : Instr) (s : State), i ∈ [.crcInit, .tagConstruct, .chunkSet, .sigEmit] → ∃ t, exec i s = .next t)

/-! ### Invariants -/

/-- R40 and the form of the buffers: every step keeps the invariants, whichever agent moves. -/
def Obligations.StepKeepsInvariant : Prop :=
  ∀ s t : State, StateInv s → step s = .next t → StateInv t

/-- R251 with R40: the state after reset meets the invariants, for any sizes that R6 allows. -/
def Obligations.ResetMeetsInvariant : Prop :=
  (∀ c : Config, c.Wf → StateInv (State.resetWith c)) ∧ StateInv State.reset

/-- R22, R221: the STATUS word, field by field, the reserved bits 7:5 and 31:16 being 0; and the code of each outcome. -/
def Obligations.StatusWordFields : Prop :=
  (errField none = 0x00#8 ∧ errField (some .invalidByte) = 0x01#8 ∧ errField (some .invalidLength) = 0x02#8
    ∧ errField (some .invalidSignature) = 0x03#8 ∧ errField (some .lengthMismatch) = 0x04#8
    ∧ errField (some .invalidCrc) = 0x05#8 ∧ errField (some .invalidChunkType) = 0x06#8
    ∧ errField (some .illegalCommand) = 0x10#8 ∧ errField (some .rangeError) = 0x11#8
    ∧ errField (some .outputOverflow) = 0x12#8 ∧ errField (some .noTag) = 0x13#8
    ∧ errField (some .noChunk) = 0x14#8 ∧ errField (some .streamNotOpen) = 0x15#8)
  ∧ ∀ s : State,
    s.statusWord.getLsbD 0 = s.busy ∧ s.statusWord.getLsbD 1 = s.endFlag
      ∧ s.statusWord.getLsbD 2 = s.tagValid ∧ s.statusWord.getLsbD 3 = s.chValid
      ∧ s.statusWord.getLsbD 4 = s.stActive ∧ s.statusWord.extractLsb' 5 3 = 0
      ∧ s.statusWord.extractLsb' 8 8 = errField s.err ∧ s.statusWord.extractLsb' 16 16 = 0

/-- R40: the six invariants hold in every non-faulted state that some run reaches from reset, for any sizes R6 allows, any
host program, any turns and any place in the free delays. -/
def Obligations.InvariantsOfReachableStates : Prop :=
  ∀ (c : Config) (program : List HostInstr) (turns : List Agent) (draws k : Nat) (s : State), c.Wf →
    runSteps k { State.resetWith c with program := program, turns := turns, draws := draws } = .next s →
    s.faulted = none →
      (s.tagValid = true → LetterTag s.tag)
        ∧ (s.chValid = true → LetterTag s.chType ∧ s.chPoff.toNat + s.chLen.toNat ≤ s.cfg.ibufSize)
        ∧ (s.stActive = true → s.stCur.toNat ≤ s.stEnd.toNat ∧ s.stEnd.toNat ≤ s.cfg.ibufSize)
        ∧ (s.statusWord.getLsbD 0 = true ↔ s.pending ≠ none)
        ∧ (s.statusWord.extractLsb' 5 3 = 0 ∧ s.statusWord.extractLsb' 16 16 = 0)
        ∧ s.statusWord.extractLsb' 8 8 ∈ [0x00#8, 0x01#8, 0x02#8, 0x03#8, 0x04#8, 0x05#8, 0x06#8, 0x10#8, 0x11#8,
            0x12#8, 0x13#8, 0x14#8, 0x15#8]
end

