-- ==== Sys2Proof/Laws/Memory.lean ====
section
/-!
SUPPORT. The laws of the buffers: a read after a write, the canonical form kept by every write, equal contents are equal
lists, and what a successful or a faulting read of one byte, of four and of many says about the cells.
-/

namespace Sys2Proof.Machine

/-! ### One cell -/

@[simp] theorem memLookup_nil (x : Nat) : memLookup [] x = none := rfl

theorem memLookup_memWrite (m : Memory) (x y : Nat) (v : Byte) :
    memLookup (memWrite m x v) y = if x = y then some v else memLookup m y := by
  induction m with
  | nil => simp [memWrite, memLookup]
  | cons p m ih =>
    obtain ⟨a, b⟩ := p
    unfold memWrite
    split
    · simp [memLookup]
    · split
      · subst_vars
        by_cases h : a = y <;> simp [memLookup, h]
      · simp only [memLookup, ih]
        by_cases h : a = y
        · subst h
          simp [‹¬x = a›]
        · simp [h]

@[simp] theorem memLookup_memWrite_same (m : Memory) (x : Nat) (v : Byte) :
    memLookup (memWrite m x v) x = some v := by
  simp [memLookup_memWrite]

theorem memLookup_memWrite_other (m : Memory) {x y : Nat} (v : Byte) (h : x ≠ y) :
    memLookup (memWrite m x v) y = memLookup m y := by
  simp [memLookup_memWrite, h]

theorem memWrite_mem (m : Memory) (x : Nat) (v : Byte) (p : Host.Cell) (h : p ∈ memWrite m x v) :
    p = (x, v) ∨ p ∈ m := by
  induction m with
  | nil => simpa [memWrite] using h
  | cons q m ih =>
    obtain ⟨a, b⟩ := q
    unfold memWrite at h
    split at h
    · simpa using h
    · split at h
      · rcases List.mem_cons.mp h with h | h
        · exact .inl h
        · exact .inr (List.mem_cons_of_mem _ h)
      · rcases List.mem_cons.mp h with h | h
        · exact .inr (by simp [h])
        · exact (ih h).imp id (List.mem_cons_of_mem _)

/-- A write keeps the canonical form. -/
theorem memWrite_wf (m : Memory) (x : Nat) (v : Byte) (h : Memory.wf m) : Memory.wf (memWrite m x v) := by
  induction m with
  | nil => simp [memWrite, Memory.wf]
  | cons q m ih =>
    obtain ⟨a, b⟩ := q
    obtain ⟨hall, hm⟩ := List.pairwise_cons.mp h
    unfold memWrite
    split
    · rename_i hlt
      refine List.pairwise_cons.mpr ⟨?_, h⟩
      intro p hp
      rcases List.mem_cons.mp hp with rfl | hp
      · exact hlt
      · exact hlt.trans (hall p hp)
    · split
      · rename_i hxa
        subst hxa
        exact List.pairwise_cons.mpr ⟨hall, hm⟩
      · refine List.pairwise_cons.mpr ⟨?_, ih hm⟩
        intro p hp
        rcases memWrite_mem m x v p hp with rfl | hp
        · simp only
          omega
        · exact hall p hp

theorem memLookup_none_of_lt (m : Memory) (x : Nat) (h : ∀ p ∈ m, x < p.1) : memLookup m x = none := by
  induction m with
  | nil => rfl
  | cons q m ih =>
    obtain ⟨a, b⟩ := q
    have hx : x < a := h (a, b) (by simp)
    simp only [memLookup, if_neg (Nat.ne_of_gt hx)]
    exact ih fun p hp => h p (List.mem_cons_of_mem _ hp)

/-- Two buffers in canonical form that read alike everywhere are the same list. -/
theorem memory_ext {m m' : Memory} (h : Memory.wf m) (h' : Memory.wf m')
    (heq : ∀ x, memLookup m x = memLookup m' x) : m = m' := by
  induction m generalizing m' with
  | nil =>
    cases m' with
    | nil => rfl
    | cons q m' => simpa [memLookup] using heq q.1
  | cons p m ih =>
    obtain ⟨a, b⟩ := p
    obtain ⟨hall, hm⟩ := List.pairwise_cons.mp h
    cases m' with
    | nil => simpa [memLookup] using heq a
    | cons q m' =>
      obtain ⟨c, d⟩ := q
      obtain ⟨hall', hm'⟩ := List.pairwise_cons.mp h'
      have hac : a = c := by
        rcases Nat.lt_trichotomy a c with hlt | rfl | hlt
        · have := heq a
          rw [memLookup_none_of_lt ((c, d) :: m') a] at this
          · simp [memLookup] at this
          · intro p hp
            rcases List.mem_cons.mp hp with rfl | hp
            · exact hlt
            · exact hlt.trans (hall' p hp)
        · rfl
        · have := heq c
          rw [memLookup_none_of_lt ((a, b) :: m) c] at this
          · simp [memLookup] at this
          · intro p hp
            rcases List.mem_cons.mp hp with rfl | hp
            · exact hlt
            · exact hlt.trans (hall p hp)
      subst hac
      have hbd : b = d := by simpa [memLookup] using heq a
      subst hbd
      refine congrArg _ (ih hm hm' fun x => ?_)
      by_cases hx : a = x
      · subst hx
        rw [memLookup_none_of_lt m a hall, memLookup_none_of_lt m' a hall']
      · simpa [memLookup, hx] using heq x

/-! ### Many cells -/

@[simp] theorem memWriteBytes_nil (m : Memory) (a : Nat) : memWriteBytes m a [] = m := rfl

@[simp] theorem memWriteBytes_cons (m : Memory) (a : Nat) (b : Byte) (bs : List Byte) :
    memWriteBytes m a (b :: bs) = memWriteBytes (memWrite m a b) (a + 1) bs := rfl

theorem memWriteBytes_wf (m : Memory) (a : Nat) (bs : List Byte) (h : Memory.wf m) :
    Memory.wf (memWriteBytes m a bs) := by
  induction bs generalizing m a with
  | nil => exact h
  | cons b bs ih => exact ih _ _ (memWrite_wf m a b h)

/-- Outside the written range every cell is as before. -/
theorem memLookup_memWriteBytes_outside (m : Memory) (a x : Nat) (bs : List Byte)
    (h : x < a ∨ a + bs.length ≤ x) : memLookup (memWriteBytes m a bs) x = memLookup m x := by
  induction bs generalizing m a with
  | nil => rfl
  | cons b bs ih =>
    simp only [List.length_cons] at h
    rw [memWriteBytes_cons, ih _ _ (by omega), memLookup_memWrite_other _ _ (by omega)]

/-- The written range holds the bytes. -/
theorem memWriteBytes_holds (m : Memory) (a : Nat) (bs : List Byte) : Holds (memWriteBytes m a bs) a bs := by
  induction bs generalizing m a with
  | nil => intro k hk; simp at hk
  | cons b bs ih =>
    intro k hk
    cases k with
    | zero =>
      rw [memWriteBytes_cons, memLookup_memWriteBytes_outside _ _ _ _ (by omega)]
      simp
    | succ k =>
      have := ih (memWrite m a b) (a + 1) k (by simpa using hk)
      rw [memWriteBytes_cons, show a + (k + 1) = a + 1 + k by omega, this]
      simp

/-- A write of bytes inside a buffer keeps it a buffer. -/
theorem memWriteBytes_bufferOk {size : Nat} {m : Memory} (a : Nat) (bs : List Byte) (h : BufferOk size m)
    (hfit : a + bs.length ≤ size) : BufferOk size (memWriteBytes m a bs) where
  wf := memWriteBytes_wf m a bs h.wf
  inside x b hx := by
    by_cases hout : x < a ∨ a + bs.length ≤ x
    · exact h.inside x b (memLookup_memWriteBytes_outside m a x bs hout ▸ hx)
    · omega

theorem memWrite_bufferOk {size : Nat} {m : Memory} (a : Nat) (b : Byte) (h : BufferOk size m) (ha : a < size) :
    BufferOk size (memWrite m a b) := by
  simpa using memWriteBytes_bufferOk a [b] h (by simpa using ha)

theorem bufferOk_nil (size : Nat) : BufferOk size [] := ⟨List.Pairwise.nil, by simp⟩

/-! ### Reading -/

/-- A read of one cell succeeds exactly at a written cell of the buffer. -/
theorem bufRead_ok_iff {size : Nat} {m : Memory} {a : Nat} {b : Byte} :
    bufRead size m a = .ok b ↔ a < size ∧ memLookup m a = some b := by
  unfold bufRead
  split
  · simp; omega
  · cases memLookup m a <;> simp; omega

/-- A read inside the buffer faults exactly at an unwritten cell, and with UnwrittenRead. -/
theorem bufRead_unwritten {size : Nat} {m : Memory} {a : Nat} (ha : a < size) (h : memLookup m a = none) :
    bufRead size m a = .error .unwrittenRead := by
  simp [bufRead, Nat.not_le.mpr ha, h]

theorem bufRead_error_inside {size : Nat} {m : Memory} {a : Nat} {f : Fault} (ha : a < size)
    (h : bufRead size m a = .error f) : f = .unwrittenRead ∧ memLookup m a = none := by
  unfold bufRead at h
  rw [if_neg (by omega)] at h
  cases hl : memLookup m a with
  | none => simp [hl] at h; exact ⟨h.symm, rfl⟩
  | some b => simp [hl] at h

theorem holds_nil (m : Memory) (a : Nat) : Holds m a [] := by intro k hk; simp at hk

theorem holds_cons_iff {m : Memory} {a : Nat} {b : Byte} {bs : List Byte} :
    Holds m a (b :: bs) ↔ memLookup m a = some b ∧ Holds m (a + 1) bs := by
  constructor
  · intro h
    refine ⟨by simpa using h 0 (by simp), fun k hk => ?_⟩
    have := h (k + 1) (by simpa using hk)
    rw [show a + 1 + k = a + (k + 1) by omega, this]
    simp
  · rintro ⟨h0, h⟩ k hk
    cases k with
    | zero => simpa using h0
    | succ k =>
      have := h k (by simpa using hk)
      rw [show a + (k + 1) = a + 1 + k by omega, this]
      simp

theorem holds_append_iff {m : Memory} {a : Nat} {xs ys : List Byte} :
    Holds m a (xs ++ ys) ↔ Holds m a xs ∧ Holds m (a + xs.length) ys := by
  induction xs generalizing a with
  | nil => simp [holds_nil]
  | cons x xs ih =>
    rw [List.cons_append, holds_cons_iff, holds_cons_iff, ih, and_assoc, List.length_cons,
      show a + 1 + xs.length = a + (xs.length + 1) by omega]

/-- A read of `n` cells answers `bs` exactly when the range lies in the buffer and holds `bs`. -/
theorem bufReadBytes_ok_iff {size : Nat} {m : Memory} {a n : Nat} {bs : List Byte} :
    bufReadBytes size m a n = .ok bs ↔ bs.length = n ∧ (n = 0 ∨ a + n ≤ size) ∧ Holds m a bs := by
  induction n generalizing a bs with
  | zero =>
    simp only [bufReadBytes, Except.ok.injEq, List.length_eq_zero_iff, true_or, true_and]
    constructor
    · rintro rfl; exact ⟨rfl, holds_nil m a⟩
    · rintro ⟨rfl, -⟩; rfl
  | succ n ih =>
    unfold bufReadBytes
    cases h0 : bufRead size m a with
    | error f =>
      simp only [reduceCtorEq, false_iff, false_or]
      rintro ⟨hlen, hin, hh⟩
      cases bs with
      | nil => simp at hlen
      | cons b bs =>
        have := bufRead_ok_iff.mpr ⟨show a < size by omega, (holds_cons_iff.mp hh).1⟩
        rw [h0] at this
        cases this
    | ok b =>
      obtain ⟨hlt, hb⟩ := bufRead_ok_iff.mp h0
      cases h1 : bufReadBytes size m (a + 1) n with
      | error f =>
        simp only [reduceCtorEq, false_iff, false_or]
        rintro ⟨hlen, hin, hh⟩
        cases bs with
        | nil => simp at hlen
        | cons c cs =>
          have := ih.mpr ⟨by simpa using hlen, show n = 0 ∨ a + 1 + n ≤ size by omega, (holds_cons_iff.mp hh).2⟩
          rw [h1] at this
          cases this
      | ok cs =>
        obtain ⟨hlen, hin, hh⟩ := ih.mp h1
        simp only [Except.ok.injEq]
        constructor
        · rintro rfl
          exact ⟨by simp [hlen], by omega, holds_cons_iff.mpr ⟨hb, hh⟩⟩
        · rintro ⟨hlen', -, hh'⟩
          cases bs with
          | nil => simp at hlen'
          | cons c ds =>
            obtain ⟨hc, hds⟩ := holds_cons_iff.mp hh'
            have hcb : b = c := by simpa [hb] using hc
            have hcd := ih.mpr ⟨by simpa using hlen', hin, hds⟩
            rw [h1] at hcd
            cases hcd
            rw [hcb]

/-- A read of a range inside the buffer with an unwritten cell faults with UnwrittenRead. -/
theorem bufReadBytes_unwritten {size : Nat} {m : Memory} {a n k : Nat} (hin : a + n ≤ size) (hk : k < n)
    (h : memLookup m (a + k) = none) : bufReadBytes size m a n = .error .unwrittenRead := by
  induction n generalizing a k with
  | zero => omega
  | succ n ih =>
    unfold bufReadBytes
    cases h0 : bufRead size m a with
    | error f => rw [(bufRead_error_inside (by omega) h0).1]
    | ok b =>
      cases k with
      | zero =>
        have := (bufRead_ok_iff.mp h0).2
        rw [Nat.add_zero, this] at h
        cases h
      | succ k =>
        have hk' : memLookup m (a + 1 + k) = none := by rw [← h]; congr 1; omega
        rw [ih (by omega) (show k < n by omega) hk']

/-- Inside the buffer a read of many cells can fault with UnwrittenRead only, at a cell of the range. -/
theorem bufReadBytes_error_inside {size : Nat} {m : Memory} {a n : Nat} {f : Fault} (hin : a + n ≤ size)
    (h : bufReadBytes size m a n = .error f) : f = .unwrittenRead ∧ ∃ k < n, memLookup m (a + k) = none := by
  induction n generalizing a with
  | zero => cases h
  | succ n ih =>
    unfold bufReadBytes at h
    cases h0 : bufRead size m a with
    | error g =>
      simp only [h0, Except.error.injEq] at h
      obtain ⟨hg, hl⟩ := bufRead_error_inside (show a < size by omega) h0
      exact ⟨h ▸ hg, 0, by omega, hl⟩
    | ok b =>
      simp only [h0] at h
      cases h1 : bufReadBytes size m (a + 1) n with
      | error g =>
        simp only [h1, Except.error.injEq] at h
        obtain ⟨hg, k, hk, hl⟩ := ih (show a + 1 + n ≤ size by omega) (h ▸ h1)
        exact ⟨hg, k + 1, by omega, by rw [← hl]; congr 1; omega⟩
      | ok cs => simp [h1] at h

/-- The read of four named bytes is the read of four cells. -/
theorem memRead4_eq (s : State) (a : Nat) :
    s.memRead a 4 = match s.memRead4 a with
      | .error f => .error f
      | .ok q => .ok (quadBytes q) := by
  simp only [State.memRead, State.memRead4, bufReadBytes, Nat.add_assoc, Nat.reduceAdd]
  cases bufRead s.cfg.ibufSize s.ibuf a with
  | error f => rfl
  | ok b0 =>
    cases bufRead s.cfg.ibufSize s.ibuf (a + 1) with
    | error f => rfl
    | ok b1 =>
      cases bufRead s.cfg.ibufSize s.ibuf (a + 2) with
      | error f => rfl
      | ok b2 => cases bufRead s.cfg.ibufSize s.ibuf (a + 3) <;> rfl

@[simp] theorem quadBytes_length (q : Quad) : (quadBytes q).length = 4 := rfl

theorem quadBytes_injective {q r : Quad} (h : quadBytes q = quadBytes r) : q = r := by
  cases q; cases r; simpa [quadBytes] using h

theorem memRead_ok_iff {s : State} {a n : Nat} {bs : List Byte} :
    s.memRead a n = .ok bs ↔ bs.length = n ∧ (n = 0 ∨ a + n ≤ s.cfg.ibufSize) ∧ Holds s.ibuf a bs :=
  bufReadBytes_ok_iff

theorem memRead4_ok_iff {s : State} {a : Nat} {q : Quad} :
    s.memRead4 a = .ok q ↔ a + 4 ≤ s.cfg.ibufSize ∧ Holds s.ibuf a (quadBytes q) := by
  have h : s.memRead a 4 = .ok (quadBytes q) ↔ s.memRead4 a = .ok q := by
    rw [memRead4_eq]
    cases s.memRead4 a with
    | error f => simp
    | ok r => simpa using ⟨quadBytes_injective, congrArg quadBytes⟩
  rw [← h, memRead_ok_iff]
  simp

theorem memRead4_error_iff {s : State} {a : Nat} {f : Fault} :
    s.memRead4 a = .error f ↔ s.memRead a 4 = .error f := by
  rw [memRead4_eq]
  cases s.memRead4 a <;> simp

theorem memRead4_unwritten {s : State} {a k : Nat} (hin : a + 4 ≤ s.cfg.ibufSize) (hk : k < 4)
    (h : memLookup s.ibuf (a + k) = none) : s.memRead4 a = .error .unwrittenRead :=
  memRead4_error_iff.mpr (bufReadBytes_unwritten hin hk h)

theorem memRead4_error_inside {s : State} {a : Nat} {f : Fault} (hin : a + 4 ≤ s.cfg.ibufSize)
    (h : s.memRead4 a = .error f) : f = .unwrittenRead ∧ ∃ k < 4, memLookup s.ibuf (a + k) = none :=
  bufReadBytes_error_inside hin (memRead4_error_iff.mp h)

end Sys2Proof.Machine
end

