-- ==== Sys2Proof/Laws/State.lean ====
section
/-!
SUPPORT. One lemma per field of State per update, true by rfl, so that no proof unfolds a record update.
-/

namespace Sys2Proof.Machine

/-! ### State.complete -/

@[simp] theorem State.complete_cfg (s : State) (e : Option CmdError) (atEnd : Bool) : (s.complete e atEnd).cfg = s.cfg := rfl
@[simp] theorem State.complete_cmd (s : State) (e : Option CmdError) (atEnd : Bool) : (s.complete e atEnd).cmd = s.cmd := rfl
@[simp] theorem State.complete_argAddr (s : State) (e : Option CmdError) (atEnd : Bool) : (s.complete e atEnd).argAddr = s.argAddr := rfl
@[simp] theorem State.complete_argLen (s : State) (e : Option CmdError) (atEnd : Bool) : (s.complete e atEnd).argLen = s.argLen := rfl
@[simp] theorem State.complete_tagIn (s : State) (e : Option CmdError) (atEnd : Bool) : (s.complete e atEnd).tagIn = s.tagIn := rfl
@[simp] theorem State.complete_tag (s : State) (e : Option CmdError) (atEnd : Bool) : (s.complete e atEnd).tag = s.tag := rfl
@[simp] theorem State.complete_tagValid (s : State) (e : Option CmdError) (atEnd : Bool) : (s.complete e atEnd).tagValid = s.tagValid := rfl
@[simp] theorem State.complete_chType (s : State) (e : Option CmdError) (atEnd : Bool) : (s.complete e atEnd).chType = s.chType := rfl
@[simp] theorem State.complete_chPoff (s : State) (e : Option CmdError) (atEnd : Bool) : (s.complete e atEnd).chPoff = s.chPoff := rfl
@[simp] theorem State.complete_chLen (s : State) (e : Option CmdError) (atEnd : Bool) : (s.complete e atEnd).chLen = s.chLen := rfl
@[simp] theorem State.complete_chValid (s : State) (e : Option CmdError) (atEnd : Bool) : (s.complete e atEnd).chValid = s.chValid := rfl
@[simp] theorem State.complete_chCrc (s : State) (e : Option CmdError) (atEnd : Bool) : (s.complete e atEnd).chCrc = s.chCrc := rfl
@[simp] theorem State.complete_crcAcc (s : State) (e : Option CmdError) (atEnd : Bool) : (s.complete e atEnd).crcAcc = s.crcAcc := rfl
@[simp] theorem State.complete_outPtr (s : State) (e : Option CmdError) (atEnd : Bool) : (s.complete e atEnd).outPtr = s.outPtr := rfl
@[simp] theorem State.complete_stCur (s : State) (e : Option CmdError) (atEnd : Bool) : (s.complete e atEnd).stCur = s.stCur := rfl
@[simp] theorem State.complete_stEnd (s : State) (e : Option CmdError) (atEnd : Bool) : (s.complete e atEnd).stEnd = s.stEnd := rfl
@[simp] theorem State.complete_stCount (s : State) (e : Option CmdError) (atEnd : Bool) : (s.complete e atEnd).stCount = s.stCount := rfl
@[simp] theorem State.complete_stActive (s : State) (e : Option CmdError) (atEnd : Bool) : (s.complete e atEnd).stActive = s.stActive := rfl
@[simp] theorem State.complete_endFlag (s : State) (e : Option CmdError) (atEnd : Bool) : (s.complete e atEnd).endFlag = atEnd := rfl
@[simp] theorem State.complete_err (s : State) (e : Option CmdError) (atEnd : Bool) : (s.complete e atEnd).err = e := rfl
@[simp] theorem State.complete_pending (s : State) (e : Option CmdError) (atEnd : Bool) : (s.complete e atEnd).pending = none := rfl
@[simp] theorem State.complete_ibuf (s : State) (e : Option CmdError) (atEnd : Bool) : (s.complete e atEnd).ibuf = s.ibuf := rfl
@[simp] theorem State.complete_obuf (s : State) (e : Option CmdError) (atEnd : Bool) : (s.complete e atEnd).obuf = s.obuf := rfl
@[simp] theorem State.complete_faulted (s : State) (e : Option CmdError) (atEnd : Bool) : (s.complete e atEnd).faulted = s.faulted := rfl
@[simp] theorem State.complete_program (s : State) (e : Option CmdError) (atEnd : Bool) : (s.complete e atEnd).program = s.program := rfl
@[simp] theorem State.complete_hostPos (s : State) (e : Option CmdError) (atEnd : Bool) : (s.complete e atEnd).hostPos = s.hostPos := rfl
@[simp] theorem State.complete_recorded (s : State) (e : Option CmdError) (atEnd : Bool) : (s.complete e atEnd).recorded = s.recorded := rfl
@[simp] theorem State.complete_turns (s : State) (e : Option CmdError) (atEnd : Bool) : (s.complete e atEnd).turns = s.turns := rfl
@[simp] theorem State.complete_draws (s : State) (e : Option CmdError) (atEnd : Bool) : (s.complete e atEnd).draws = s.draws := rfl

/-! ### State.issue -/

@[simp] theorem State.issue_cfg (s : State) (w : Word) : (s.issue w).cfg = s.cfg := rfl
@[simp] theorem State.issue_cmd (s : State) (w : Word) : (s.issue w).cmd = w := rfl
@[simp] theorem State.issue_argAddr (s : State) (w : Word) : (s.issue w).argAddr = s.argAddr := rfl
@[simp] theorem State.issue_argLen (s : State) (w : Word) : (s.issue w).argLen = s.argLen := rfl
@[simp] theorem State.issue_tagIn (s : State) (w : Word) : (s.issue w).tagIn = s.tagIn := rfl
@[simp] theorem State.issue_tag (s : State) (w : Word) : (s.issue w).tag = s.tag := rfl
@[simp] theorem State.issue_tagValid (s : State) (w : Word) : (s.issue w).tagValid = s.tagValid := rfl
@[simp] theorem State.issue_chType (s : State) (w : Word) : (s.issue w).chType = s.chType := rfl
@[simp] theorem State.issue_chPoff (s : State) (w : Word) : (s.issue w).chPoff = s.chPoff := rfl
@[simp] theorem State.issue_chLen (s : State) (w : Word) : (s.issue w).chLen = s.chLen := rfl
@[simp] theorem State.issue_chValid (s : State) (w : Word) : (s.issue w).chValid = s.chValid := rfl
@[simp] theorem State.issue_chCrc (s : State) (w : Word) : (s.issue w).chCrc = s.chCrc := rfl
@[simp] theorem State.issue_crcAcc (s : State) (w : Word) : (s.issue w).crcAcc = s.crcAcc := rfl
@[simp] theorem State.issue_outPtr (s : State) (w : Word) : (s.issue w).outPtr = s.outPtr := rfl
@[simp] theorem State.issue_stCur (s : State) (w : Word) : (s.issue w).stCur = s.stCur := rfl
@[simp] theorem State.issue_stEnd (s : State) (w : Word) : (s.issue w).stEnd = s.stEnd := rfl
@[simp] theorem State.issue_stCount (s : State) (w : Word) : (s.issue w).stCount = s.stCount := rfl
@[simp] theorem State.issue_stActive (s : State) (w : Word) : (s.issue w).stActive = s.stActive := rfl
@[simp] theorem State.issue_endFlag (s : State) (w : Word) : (s.issue w).endFlag = false := rfl
@[simp] theorem State.issue_err (s : State) (w : Word) : (s.issue w).err = none := rfl
@[simp] theorem State.issue_pending (s : State) (w : Word) : (s.issue w).pending = some w := rfl
@[simp] theorem State.issue_ibuf (s : State) (w : Word) : (s.issue w).ibuf = s.ibuf := rfl
@[simp] theorem State.issue_obuf (s : State) (w : Word) : (s.issue w).obuf = s.obuf := rfl
@[simp] theorem State.issue_faulted (s : State) (w : Word) : (s.issue w).faulted = s.faulted := rfl
@[simp] theorem State.issue_program (s : State) (w : Word) : (s.issue w).program = s.program := rfl
@[simp] theorem State.issue_hostPos (s : State) (w : Word) : (s.issue w).hostPos = s.hostPos := rfl
@[simp] theorem State.issue_recorded (s : State) (w : Word) : (s.issue w).recorded = s.recorded := rfl
@[simp] theorem State.issue_turns (s : State) (w : Word) : (s.issue w).turns = s.turns := rfl
@[simp] theorem State.issue_draws (s : State) (w : Word) : (s.issue w).draws = s.draws := rfl

/-! ### State.markFault -/

@[simp] theorem State.markFault_cfg (s : State) (f : Fault) : (s.markFault f).cfg = s.cfg := rfl
@[simp] theorem State.markFault_cmd (s : State) (f : Fault) : (s.markFault f).cmd = s.cmd := rfl
@[simp] theorem State.markFault_argAddr (s : State) (f : Fault) : (s.markFault f).argAddr = s.argAddr := rfl
@[simp] theorem State.markFault_argLen (s : State) (f : Fault) : (s.markFault f).argLen = s.argLen := rfl
@[simp] theorem State.markFault_tagIn (s : State) (f : Fault) : (s.markFault f).tagIn = s.tagIn := rfl
@[simp] theorem State.markFault_tag (s : State) (f : Fault) : (s.markFault f).tag = s.tag := rfl
@[simp] theorem State.markFault_tagValid (s : State) (f : Fault) : (s.markFault f).tagValid = s.tagValid := rfl
@[simp] theorem State.markFault_chType (s : State) (f : Fault) : (s.markFault f).chType = s.chType := rfl
@[simp] theorem State.markFault_chPoff (s : State) (f : Fault) : (s.markFault f).chPoff = s.chPoff := rfl
@[simp] theorem State.markFault_chLen (s : State) (f : Fault) : (s.markFault f).chLen = s.chLen := rfl
@[simp] theorem State.markFault_chValid (s : State) (f : Fault) : (s.markFault f).chValid = s.chValid := rfl
@[simp] theorem State.markFault_chCrc (s : State) (f : Fault) : (s.markFault f).chCrc = s.chCrc := rfl
@[simp] theorem State.markFault_crcAcc (s : State) (f : Fault) : (s.markFault f).crcAcc = s.crcAcc := rfl
@[simp] theorem State.markFault_outPtr (s : State) (f : Fault) : (s.markFault f).outPtr = s.outPtr := rfl
@[simp] theorem State.markFault_stCur (s : State) (f : Fault) : (s.markFault f).stCur = s.stCur := rfl
@[simp] theorem State.markFault_stEnd (s : State) (f : Fault) : (s.markFault f).stEnd = s.stEnd := rfl
@[simp] theorem State.markFault_stCount (s : State) (f : Fault) : (s.markFault f).stCount = s.stCount := rfl
@[simp] theorem State.markFault_stActive (s : State) (f : Fault) : (s.markFault f).stActive = s.stActive := rfl
@[simp] theorem State.markFault_endFlag (s : State) (f : Fault) : (s.markFault f).endFlag = s.endFlag := rfl
@[simp] theorem State.markFault_err (s : State) (f : Fault) : (s.markFault f).err = s.err := rfl
@[simp] theorem State.markFault_pending (s : State) (f : Fault) : (s.markFault f).pending = s.pending := rfl
@[simp] theorem State.markFault_ibuf (s : State) (f : Fault) : (s.markFault f).ibuf = s.ibuf := rfl
@[simp] theorem State.markFault_obuf (s : State) (f : Fault) : (s.markFault f).obuf = s.obuf := rfl
@[simp] theorem State.markFault_faulted (s : State) (f : Fault) : (s.markFault f).faulted = some f := rfl
@[simp] theorem State.markFault_program (s : State) (f : Fault) : (s.markFault f).program = s.program := rfl
@[simp] theorem State.markFault_hostPos (s : State) (f : Fault) : (s.markFault f).hostPos = s.hostPos := rfl
@[simp] theorem State.markFault_recorded (s : State) (f : Fault) : (s.markFault f).recorded = s.recorded := rfl
@[simp] theorem State.markFault_turns (s : State) (f : Fault) : (s.markFault f).turns = s.turns := rfl
@[simp] theorem State.markFault_draws (s : State) (f : Fault) : (s.markFault f).draws = s.draws := rfl

/-! ### State.faultCommand -/

@[simp] theorem State.faultCommand_cfg (s : State) (f : Fault) : (s.faultCommand f).cfg = s.cfg := rfl
@[simp] theorem State.faultCommand_cmd (s : State) (f : Fault) : (s.faultCommand f).cmd = s.cmd := rfl
@[simp] theorem State.faultCommand_argAddr (s : State) (f : Fault) : (s.faultCommand f).argAddr = s.argAddr := rfl
@[simp] theorem State.faultCommand_argLen (s : State) (f : Fault) : (s.faultCommand f).argLen = s.argLen := rfl
@[simp] theorem State.faultCommand_tagIn (s : State) (f : Fault) : (s.faultCommand f).tagIn = s.tagIn := rfl
@[simp] theorem State.faultCommand_tag (s : State) (f : Fault) : (s.faultCommand f).tag = s.tag := rfl
@[simp] theorem State.faultCommand_tagValid (s : State) (f : Fault) : (s.faultCommand f).tagValid = s.tagValid := rfl
@[simp] theorem State.faultCommand_chType (s : State) (f : Fault) : (s.faultCommand f).chType = s.chType := rfl
@[simp] theorem State.faultCommand_chPoff (s : State) (f : Fault) : (s.faultCommand f).chPoff = s.chPoff := rfl
@[simp] theorem State.faultCommand_chLen (s : State) (f : Fault) : (s.faultCommand f).chLen = s.chLen := rfl
@[simp] theorem State.faultCommand_chValid (s : State) (f : Fault) : (s.faultCommand f).chValid = s.chValid := rfl
@[simp] theorem State.faultCommand_chCrc (s : State) (f : Fault) : (s.faultCommand f).chCrc = s.chCrc := rfl
@[simp] theorem State.faultCommand_crcAcc (s : State) (f : Fault) : (s.faultCommand f).crcAcc = s.crcAcc := rfl
@[simp] theorem State.faultCommand_outPtr (s : State) (f : Fault) : (s.faultCommand f).outPtr = s.outPtr := rfl
@[simp] theorem State.faultCommand_stCur (s : State) (f : Fault) : (s.faultCommand f).stCur = s.stCur := rfl
@[simp] theorem State.faultCommand_stEnd (s : State) (f : Fault) : (s.faultCommand f).stEnd = s.stEnd := rfl
@[simp] theorem State.faultCommand_stCount (s : State) (f : Fault) : (s.faultCommand f).stCount = s.stCount := rfl
@[simp] theorem State.faultCommand_stActive (s : State) (f : Fault) : (s.faultCommand f).stActive = s.stActive := rfl
@[simp] theorem State.faultCommand_endFlag (s : State) (f : Fault) : (s.faultCommand f).endFlag = s.endFlag := rfl
@[simp] theorem State.faultCommand_err (s : State) (f : Fault) : (s.faultCommand f).err = s.err := rfl
@[simp] theorem State.faultCommand_pending (s : State) (f : Fault) : (s.faultCommand f).pending = none := rfl
@[simp] theorem State.faultCommand_ibuf (s : State) (f : Fault) : (s.faultCommand f).ibuf = s.ibuf := rfl
@[simp] theorem State.faultCommand_obuf (s : State) (f : Fault) : (s.faultCommand f).obuf = s.obuf := rfl
@[simp] theorem State.faultCommand_faulted (s : State) (f : Fault) : (s.faultCommand f).faulted = some f := rfl
@[simp] theorem State.faultCommand_program (s : State) (f : Fault) : (s.faultCommand f).program = s.program := rfl
@[simp] theorem State.faultCommand_hostPos (s : State) (f : Fault) : (s.faultCommand f).hostPos = s.hostPos := rfl
@[simp] theorem State.faultCommand_recorded (s : State) (f : Fault) : (s.faultCommand f).recorded = s.recorded := rfl
@[simp] theorem State.faultCommand_turns (s : State) (f : Fault) : (s.faultCommand f).turns = s.turns := rfl
@[simp] theorem State.faultCommand_draws (s : State) (f : Fault) : (s.faultCommand f).draws = s.draws := rfl

/-! ### State.setChunk -/

@[simp] theorem State.setChunk_cfg (s : State) (r : ChunkRecord) : (s.setChunk r).cfg = s.cfg := rfl
@[simp] theorem State.setChunk_cmd (s : State) (r : ChunkRecord) : (s.setChunk r).cmd = s.cmd := rfl
@[simp] theorem State.setChunk_argAddr (s : State) (r : ChunkRecord) : (s.setChunk r).argAddr = s.argAddr := rfl
@[simp] theorem State.setChunk_argLen (s : State) (r : ChunkRecord) : (s.setChunk r).argLen = s.argLen := rfl
@[simp] theorem State.setChunk_tagIn (s : State) (r : ChunkRecord) : (s.setChunk r).tagIn = s.tagIn := rfl
@[simp] theorem State.setChunk_tag (s : State) (r : ChunkRecord) : (s.setChunk r).tag = s.tag := rfl
@[simp] theorem State.setChunk_tagValid (s : State) (r : ChunkRecord) : (s.setChunk r).tagValid = s.tagValid := rfl
@[simp] theorem State.setChunk_chType (s : State) (r : ChunkRecord) : (s.setChunk r).chType = r.chType := rfl
@[simp] theorem State.setChunk_chPoff (s : State) (r : ChunkRecord) : (s.setChunk r).chPoff = r.chPoff := rfl
@[simp] theorem State.setChunk_chLen (s : State) (r : ChunkRecord) : (s.setChunk r).chLen = r.chLen := rfl
@[simp] theorem State.setChunk_chValid (s : State) (r : ChunkRecord) : (s.setChunk r).chValid = true := rfl
@[simp] theorem State.setChunk_chCrc (s : State) (r : ChunkRecord) : (s.setChunk r).chCrc = r.chCrc := rfl
@[simp] theorem State.setChunk_crcAcc (s : State) (r : ChunkRecord) : (s.setChunk r).crcAcc = s.crcAcc := rfl
@[simp] theorem State.setChunk_outPtr (s : State) (r : ChunkRecord) : (s.setChunk r).outPtr = s.outPtr := rfl
@[simp] theorem State.setChunk_stCur (s : State) (r : ChunkRecord) : (s.setChunk r).stCur = s.stCur := rfl
@[simp] theorem State.setChunk_stEnd (s : State) (r : ChunkRecord) : (s.setChunk r).stEnd = s.stEnd := rfl
@[simp] theorem State.setChunk_stCount (s : State) (r : ChunkRecord) : (s.setChunk r).stCount = s.stCount := rfl
@[simp] theorem State.setChunk_stActive (s : State) (r : ChunkRecord) : (s.setChunk r).stActive = s.stActive := rfl
@[simp] theorem State.setChunk_endFlag (s : State) (r : ChunkRecord) : (s.setChunk r).endFlag = s.endFlag := rfl
@[simp] theorem State.setChunk_err (s : State) (r : ChunkRecord) : (s.setChunk r).err = s.err := rfl
@[simp] theorem State.setChunk_pending (s : State) (r : ChunkRecord) : (s.setChunk r).pending = s.pending := rfl
@[simp] theorem State.setChunk_ibuf (s : State) (r : ChunkRecord) : (s.setChunk r).ibuf = s.ibuf := rfl
@[simp] theorem State.setChunk_obuf (s : State) (r : ChunkRecord) : (s.setChunk r).obuf = s.obuf := rfl
@[simp] theorem State.setChunk_faulted (s : State) (r : ChunkRecord) : (s.setChunk r).faulted = s.faulted := rfl
@[simp] theorem State.setChunk_program (s : State) (r : ChunkRecord) : (s.setChunk r).program = s.program := rfl
@[simp] theorem State.setChunk_hostPos (s : State) (r : ChunkRecord) : (s.setChunk r).hostPos = s.hostPos := rfl
@[simp] theorem State.setChunk_recorded (s : State) (r : ChunkRecord) : (s.setChunk r).recorded = s.recorded := rfl
@[simp] theorem State.setChunk_turns (s : State) (r : ChunkRecord) : (s.setChunk r).turns = s.turns := rfl
@[simp] theorem State.setChunk_draws (s : State) (r : ChunkRecord) : (s.setChunk r).draws = s.draws := rfl

/-! ### State.emit -/

@[simp] theorem State.emit_cfg (s : State) (bs : List Byte) : (s.emit bs).cfg = s.cfg := rfl
@[simp] theorem State.emit_cmd (s : State) (bs : List Byte) : (s.emit bs).cmd = s.cmd := rfl
@[simp] theorem State.emit_argAddr (s : State) (bs : List Byte) : (s.emit bs).argAddr = s.argAddr := rfl
@[simp] theorem State.emit_argLen (s : State) (bs : List Byte) : (s.emit bs).argLen = s.argLen := rfl
@[simp] theorem State.emit_tagIn (s : State) (bs : List Byte) : (s.emit bs).tagIn = s.tagIn := rfl
@[simp] theorem State.emit_tag (s : State) (bs : List Byte) : (s.emit bs).tag = s.tag := rfl
@[simp] theorem State.emit_tagValid (s : State) (bs : List Byte) : (s.emit bs).tagValid = s.tagValid := rfl
@[simp] theorem State.emit_chType (s : State) (bs : List Byte) : (s.emit bs).chType = s.chType := rfl
@[simp] theorem State.emit_chPoff (s : State) (bs : List Byte) : (s.emit bs).chPoff = s.chPoff := rfl
@[simp] theorem State.emit_chLen (s : State) (bs : List Byte) : (s.emit bs).chLen = s.chLen := rfl
@[simp] theorem State.emit_chValid (s : State) (bs : List Byte) : (s.emit bs).chValid = s.chValid := rfl
@[simp] theorem State.emit_chCrc (s : State) (bs : List Byte) : (s.emit bs).chCrc = s.chCrc := rfl
@[simp] theorem State.emit_crcAcc (s : State) (bs : List Byte) : (s.emit bs).crcAcc = s.crcAcc := rfl
@[simp] theorem State.emit_outPtr (s : State) (bs : List Byte) : (s.emit bs).outPtr = BitVec.ofNat 32 (s.outPtr.toNat + bs.length) := rfl
@[simp] theorem State.emit_stCur (s : State) (bs : List Byte) : (s.emit bs).stCur = s.stCur := rfl
@[simp] theorem State.emit_stEnd (s : State) (bs : List Byte) : (s.emit bs).stEnd = s.stEnd := rfl
@[simp] theorem State.emit_stCount (s : State) (bs : List Byte) : (s.emit bs).stCount = s.stCount := rfl
@[simp] theorem State.emit_stActive (s : State) (bs : List Byte) : (s.emit bs).stActive = s.stActive := rfl
@[simp] theorem State.emit_endFlag (s : State) (bs : List Byte) : (s.emit bs).endFlag = s.endFlag := rfl
@[simp] theorem State.emit_err (s : State) (bs : List Byte) : (s.emit bs).err = s.err := rfl
@[simp] theorem State.emit_pending (s : State) (bs : List Byte) : (s.emit bs).pending = s.pending := rfl
@[simp] theorem State.emit_ibuf (s : State) (bs : List Byte) : (s.emit bs).ibuf = s.ibuf := rfl
@[simp] theorem State.emit_obuf (s : State) (bs : List Byte) : (s.emit bs).obuf = memWriteBytes s.obuf s.outPtr.toNat bs := rfl
@[simp] theorem State.emit_faulted (s : State) (bs : List Byte) : (s.emit bs).faulted = s.faulted := rfl
@[simp] theorem State.emit_program (s : State) (bs : List Byte) : (s.emit bs).program = s.program := rfl
@[simp] theorem State.emit_hostPos (s : State) (bs : List Byte) : (s.emit bs).hostPos = s.hostPos := rfl
@[simp] theorem State.emit_recorded (s : State) (bs : List Byte) : (s.emit bs).recorded = s.recorded := rfl
@[simp] theorem State.emit_turns (s : State) (bs : List Byte) : (s.emit bs).turns = s.turns := rfl
@[simp] theorem State.emit_draws (s : State) (bs : List Byte) : (s.emit bs).draws = s.draws := rfl

/-! ### State.advanceStream -/

@[simp] theorem State.advanceStream_cfg (s : State) (l : Nat) : (s.advanceStream l).cfg = s.cfg := rfl
@[simp] theorem State.advanceStream_cmd (s : State) (l : Nat) : (s.advanceStream l).cmd = s.cmd := rfl
@[simp] theorem State.advanceStream_argAddr (s : State) (l : Nat) : (s.advanceStream l).argAddr = s.argAddr := rfl
@[simp] theorem State.advanceStream_argLen (s : State) (l : Nat) : (s.advanceStream l).argLen = s.argLen := rfl
@[simp] theorem State.advanceStream_tagIn (s : State) (l : Nat) : (s.advanceStream l).tagIn = s.tagIn := rfl
@[simp] theorem State.advanceStream_tag (s : State) (l : Nat) : (s.advanceStream l).tag = s.tag := rfl
@[simp] theorem State.advanceStream_tagValid (s : State) (l : Nat) : (s.advanceStream l).tagValid = s.tagValid := rfl
@[simp] theorem State.advanceStream_chType (s : State) (l : Nat) : (s.advanceStream l).chType = s.chType := rfl
@[simp] theorem State.advanceStream_chPoff (s : State) (l : Nat) : (s.advanceStream l).chPoff = s.chPoff := rfl
@[simp] theorem State.advanceStream_chLen (s : State) (l : Nat) : (s.advanceStream l).chLen = s.chLen := rfl
@[simp] theorem State.advanceStream_chValid (s : State) (l : Nat) : (s.advanceStream l).chValid = s.chValid := rfl
@[simp] theorem State.advanceStream_chCrc (s : State) (l : Nat) : (s.advanceStream l).chCrc = s.chCrc := rfl
@[simp] theorem State.advanceStream_crcAcc (s : State) (l : Nat) : (s.advanceStream l).crcAcc = s.crcAcc := rfl
@[simp] theorem State.advanceStream_outPtr (s : State) (l : Nat) : (s.advanceStream l).outPtr = s.outPtr := rfl
@[simp] theorem State.advanceStream_stCur (s : State) (l : Nat) : (s.advanceStream l).stCur = BitVec.ofNat 32 (s.stCur.toNat + 12 + l) := rfl
@[simp] theorem State.advanceStream_stEnd (s : State) (l : Nat) : (s.advanceStream l).stEnd = s.stEnd := rfl
@[simp] theorem State.advanceStream_stCount (s : State) (l : Nat) : (s.advanceStream l).stCount = s.stCount + 1 := rfl
@[simp] theorem State.advanceStream_stActive (s : State) (l : Nat) : (s.advanceStream l).stActive = s.stActive := rfl
@[simp] theorem State.advanceStream_endFlag (s : State) (l : Nat) : (s.advanceStream l).endFlag = s.endFlag := rfl
@[simp] theorem State.advanceStream_err (s : State) (l : Nat) : (s.advanceStream l).err = s.err := rfl
@[simp] theorem State.advanceStream_pending (s : State) (l : Nat) : (s.advanceStream l).pending = s.pending := rfl
@[simp] theorem State.advanceStream_ibuf (s : State) (l : Nat) : (s.advanceStream l).ibuf = s.ibuf := rfl
@[simp] theorem State.advanceStream_obuf (s : State) (l : Nat) : (s.advanceStream l).obuf = s.obuf := rfl
@[simp] theorem State.advanceStream_faulted (s : State) (l : Nat) : (s.advanceStream l).faulted = s.faulted := rfl
@[simp] theorem State.advanceStream_program (s : State) (l : Nat) : (s.advanceStream l).program = s.program := rfl
@[simp] theorem State.advanceStream_hostPos (s : State) (l : Nat) : (s.advanceStream l).hostPos = s.hostPos := rfl
@[simp] theorem State.advanceStream_recorded (s : State) (l : Nat) : (s.advanceStream l).recorded = s.recorded := rfl
@[simp] theorem State.advanceStream_turns (s : State) (l : Nat) : (s.advanceStream l).turns = s.turns := rfl
@[simp] theorem State.advanceStream_draws (s : State) (l : Nat) : (s.advanceStream l).draws = s.draws := rfl

/-! ### State.record -/

@[simp] theorem State.record_cfg (s : State) (r : Reading) : (s.record r).cfg = s.cfg := rfl
@[simp] theorem State.record_cmd (s : State) (r : Reading) : (s.record r).cmd = s.cmd := rfl
@[simp] theorem State.record_argAddr (s : State) (r : Reading) : (s.record r).argAddr = s.argAddr := rfl
@[simp] theorem State.record_argLen (s : State) (r : Reading) : (s.record r).argLen = s.argLen := rfl
@[simp] theorem State.record_tagIn (s : State) (r : Reading) : (s.record r).tagIn = s.tagIn := rfl
@[simp] theorem State.record_tag (s : State) (r : Reading) : (s.record r).tag = s.tag := rfl
@[simp] theorem State.record_tagValid (s : State) (r : Reading) : (s.record r).tagValid = s.tagValid := rfl
@[simp] theorem State.record_chType (s : State) (r : Reading) : (s.record r).chType = s.chType := rfl
@[simp] theorem State.record_chPoff (s : State) (r : Reading) : (s.record r).chPoff = s.chPoff := rfl
@[simp] theorem State.record_chLen (s : State) (r : Reading) : (s.record r).chLen = s.chLen := rfl
@[simp] theorem State.record_chValid (s : State) (r : Reading) : (s.record r).chValid = s.chValid := rfl
@[simp] theorem State.record_chCrc (s : State) (r : Reading) : (s.record r).chCrc = s.chCrc := rfl
@[simp] theorem State.record_crcAcc (s : State) (r : Reading) : (s.record r).crcAcc = s.crcAcc := rfl
@[simp] theorem State.record_outPtr (s : State) (r : Reading) : (s.record r).outPtr = s.outPtr := rfl
@[simp] theorem State.record_stCur (s : State) (r : Reading) : (s.record r).stCur = s.stCur := rfl
@[simp] theorem State.record_stEnd (s : State) (r : Reading) : (s.record r).stEnd = s.stEnd := rfl
@[simp] theorem State.record_stCount (s : State) (r : Reading) : (s.record r).stCount = s.stCount := rfl
@[simp] theorem State.record_stActive (s : State) (r : Reading) : (s.record r).stActive = s.stActive := rfl
@[simp] theorem State.record_endFlag (s : State) (r : Reading) : (s.record r).endFlag = s.endFlag := rfl
@[simp] theorem State.record_err (s : State) (r : Reading) : (s.record r).err = s.err := rfl
@[simp] theorem State.record_pending (s : State) (r : Reading) : (s.record r).pending = s.pending := rfl
@[simp] theorem State.record_ibuf (s : State) (r : Reading) : (s.record r).ibuf = s.ibuf := rfl
@[simp] theorem State.record_obuf (s : State) (r : Reading) : (s.record r).obuf = s.obuf := rfl
@[simp] theorem State.record_faulted (s : State) (r : Reading) : (s.record r).faulted = s.faulted := rfl
@[simp] theorem State.record_program (s : State) (r : Reading) : (s.record r).program = s.program := rfl
@[simp] theorem State.record_hostPos (s : State) (r : Reading) : (s.record r).hostPos = s.hostPos := rfl
@[simp] theorem State.record_recorded (s : State) (r : Reading) : (s.record r).recorded = s.recorded ++ [r] := rfl
@[simp] theorem State.record_turns (s : State) (r : Reading) : (s.record r).turns = s.turns := rfl
@[simp] theorem State.record_draws (s : State) (r : Reading) : (s.record r).draws = s.draws := rfl

/-! ### State.nextLine -/

@[simp] theorem State.nextLine_cfg (s : State) : (s.nextLine).cfg = s.cfg := rfl
@[simp] theorem State.nextLine_cmd (s : State) : (s.nextLine).cmd = s.cmd := rfl
@[simp] theorem State.nextLine_argAddr (s : State) : (s.nextLine).argAddr = s.argAddr := rfl
@[simp] theorem State.nextLine_argLen (s : State) : (s.nextLine).argLen = s.argLen := rfl
@[simp] theorem State.nextLine_tagIn (s : State) : (s.nextLine).tagIn = s.tagIn := rfl
@[simp] theorem State.nextLine_tag (s : State) : (s.nextLine).tag = s.tag := rfl
@[simp] theorem State.nextLine_tagValid (s : State) : (s.nextLine).tagValid = s.tagValid := rfl
@[simp] theorem State.nextLine_chType (s : State) : (s.nextLine).chType = s.chType := rfl
@[simp] theorem State.nextLine_chPoff (s : State) : (s.nextLine).chPoff = s.chPoff := rfl
@[simp] theorem State.nextLine_chLen (s : State) : (s.nextLine).chLen = s.chLen := rfl
@[simp] theorem State.nextLine_chValid (s : State) : (s.nextLine).chValid = s.chValid := rfl
@[simp] theorem State.nextLine_chCrc (s : State) : (s.nextLine).chCrc = s.chCrc := rfl
@[simp] theorem State.nextLine_crcAcc (s : State) : (s.nextLine).crcAcc = s.crcAcc := rfl
@[simp] theorem State.nextLine_outPtr (s : State) : (s.nextLine).outPtr = s.outPtr := rfl
@[simp] theorem State.nextLine_stCur (s : State) : (s.nextLine).stCur = s.stCur := rfl
@[simp] theorem State.nextLine_stEnd (s : State) : (s.nextLine).stEnd = s.stEnd := rfl
@[simp] theorem State.nextLine_stCount (s : State) : (s.nextLine).stCount = s.stCount := rfl
@[simp] theorem State.nextLine_stActive (s : State) : (s.nextLine).stActive = s.stActive := rfl
@[simp] theorem State.nextLine_endFlag (s : State) : (s.nextLine).endFlag = s.endFlag := rfl
@[simp] theorem State.nextLine_err (s : State) : (s.nextLine).err = s.err := rfl
@[simp] theorem State.nextLine_pending (s : State) : (s.nextLine).pending = s.pending := rfl
@[simp] theorem State.nextLine_ibuf (s : State) : (s.nextLine).ibuf = s.ibuf := rfl
@[simp] theorem State.nextLine_obuf (s : State) : (s.nextLine).obuf = s.obuf := rfl
@[simp] theorem State.nextLine_faulted (s : State) : (s.nextLine).faulted = s.faulted := rfl
@[simp] theorem State.nextLine_program (s : State) : (s.nextLine).program = s.program := rfl
@[simp] theorem State.nextLine_hostPos (s : State) : (s.nextLine).hostPos = s.hostPos + 1 := rfl
@[simp] theorem State.nextLine_recorded (s : State) : (s.nextLine).recorded = s.recorded := rfl
@[simp] theorem State.nextLine_turns (s : State) : (s.nextLine).turns = s.turns := rfl
@[simp] theorem State.nextLine_draws (s : State) : (s.nextLine).draws = s.draws := rfl

/-! ### State.withPendingWord -/

@[simp] theorem State.withPendingWord_cfg (s : State) (w : Word) : (s.withPendingWord w).cfg = s.cfg := rfl
@[simp] theorem State.withPendingWord_cmd (s : State) (w : Word) : (s.withPendingWord w).cmd = w := rfl
@[simp] theorem State.withPendingWord_argAddr (s : State) (w : Word) : (s.withPendingWord w).argAddr = s.argAddr := rfl
@[simp] theorem State.withPendingWord_argLen (s : State) (w : Word) : (s.withPendingWord w).argLen = s.argLen := rfl
@[simp] theorem State.withPendingWord_tagIn (s : State) (w : Word) : (s.withPendingWord w).tagIn = s.tagIn := rfl
@[simp] theorem State.withPendingWord_tag (s : State) (w : Word) : (s.withPendingWord w).tag = s.tag := rfl
@[simp] theorem State.withPendingWord_tagValid (s : State) (w : Word) : (s.withPendingWord w).tagValid = s.tagValid := rfl
@[simp] theorem State.withPendingWord_chType (s : State) (w : Word) : (s.withPendingWord w).chType = s.chType := rfl
@[simp] theorem State.withPendingWord_chPoff (s : State) (w : Word) : (s.withPendingWord w).chPoff = s.chPoff := rfl
@[simp] theorem State.withPendingWord_chLen (s : State) (w : Word) : (s.withPendingWord w).chLen = s.chLen := rfl
@[simp] theorem State.withPendingWord_chValid (s : State) (w : Word) : (s.withPendingWord w).chValid = s.chValid := rfl
@[simp] theorem State.withPendingWord_chCrc (s : State) (w : Word) : (s.withPendingWord w).chCrc = s.chCrc := rfl
@[simp] theorem State.withPendingWord_crcAcc (s : State) (w : Word) : (s.withPendingWord w).crcAcc = s.crcAcc := rfl
@[simp] theorem State.withPendingWord_outPtr (s : State) (w : Word) : (s.withPendingWord w).outPtr = s.outPtr := rfl
@[simp] theorem State.withPendingWord_stCur (s : State) (w : Word) : (s.withPendingWord w).stCur = s.stCur := rfl
@[simp] theorem State.withPendingWord_stEnd (s : State) (w : Word) : (s.withPendingWord w).stEnd = s.stEnd := rfl
@[simp] theorem State.withPendingWord_stCount (s : State) (w : Word) : (s.withPendingWord w).stCount = s.stCount := rfl
@[simp] theorem State.withPendingWord_stActive (s : State) (w : Word) : (s.withPendingWord w).stActive = s.stActive := rfl
@[simp] theorem State.withPendingWord_endFlag (s : State) (w : Word) : (s.withPendingWord w).endFlag = false := rfl
@[simp] theorem State.withPendingWord_err (s : State) (w : Word) : (s.withPendingWord w).err = none := rfl
@[simp] theorem State.withPendingWord_pending (s : State) (w : Word) : (s.withPendingWord w).pending = some w := rfl
@[simp] theorem State.withPendingWord_ibuf (s : State) (w : Word) : (s.withPendingWord w).ibuf = s.ibuf := rfl
@[simp] theorem State.withPendingWord_obuf (s : State) (w : Word) : (s.withPendingWord w).obuf = s.obuf := rfl
@[simp] theorem State.withPendingWord_faulted (s : State) (w : Word) : (s.withPendingWord w).faulted = s.faulted := rfl
@[simp] theorem State.withPendingWord_program (s : State) (w : Word) : (s.withPendingWord w).program = s.program := rfl
@[simp] theorem State.withPendingWord_hostPos (s : State) (w : Word) : (s.withPendingWord w).hostPos = s.hostPos := rfl
@[simp] theorem State.withPendingWord_recorded (s : State) (w : Word) : (s.withPendingWord w).recorded = s.recorded := rfl
@[simp] theorem State.withPendingWord_turns (s : State) (w : Word) : (s.withPendingWord w).turns = .engine :: s.turns := rfl
@[simp] theorem State.withPendingWord_draws (s : State) (w : Word) : (s.withPendingWord w).draws = s.draws := rfl

/-! ### State.resetBlock -/

@[simp] theorem State.resetBlock_cfg (s : State) : (s.resetBlock).cfg = s.cfg := rfl
@[simp] theorem State.resetBlock_cmd (s : State) : (s.resetBlock).cmd = 0 := rfl
@[simp] theorem State.resetBlock_argAddr (s : State) : (s.resetBlock).argAddr = 0 := rfl
@[simp] theorem State.resetBlock_argLen (s : State) : (s.resetBlock).argLen = 0 := rfl
@[simp] theorem State.resetBlock_tagIn (s : State) : (s.resetBlock).tagIn = 0 := rfl
@[simp] theorem State.resetBlock_tag (s : State) : (s.resetBlock).tag = 0 := rfl
@[simp] theorem State.resetBlock_tagValid (s : State) : (s.resetBlock).tagValid = false := rfl
@[simp] theorem State.resetBlock_chType (s : State) : (s.resetBlock).chType = 0 := rfl
@[simp] theorem State.resetBlock_chPoff (s : State) : (s.resetBlock).chPoff = 0 := rfl
@[simp] theorem State.resetBlock_chLen (s : State) : (s.resetBlock).chLen = 0 := rfl
@[simp] theorem State.resetBlock_chValid (s : State) : (s.resetBlock).chValid = false := rfl
@[simp] theorem State.resetBlock_chCrc (s : State) : (s.resetBlock).chCrc = 0 := rfl
@[simp] theorem State.resetBlock_crcAcc (s : State) : (s.resetBlock).crcAcc = 0xFFFFFFFF := rfl
@[simp] theorem State.resetBlock_outPtr (s : State) : (s.resetBlock).outPtr = 0 := rfl
@[simp] theorem State.resetBlock_stCur (s : State) : (s.resetBlock).stCur = 0 := rfl
@[simp] theorem State.resetBlock_stEnd (s : State) : (s.resetBlock).stEnd = 0 := rfl
@[simp] theorem State.resetBlock_stCount (s : State) : (s.resetBlock).stCount = 0 := rfl
@[simp] theorem State.resetBlock_stActive (s : State) : (s.resetBlock).stActive = false := rfl
@[simp] theorem State.resetBlock_endFlag (s : State) : (s.resetBlock).endFlag = false := rfl
@[simp] theorem State.resetBlock_err (s : State) : (s.resetBlock).err = none := rfl
@[simp] theorem State.resetBlock_pending (s : State) : (s.resetBlock).pending = none := rfl
@[simp] theorem State.resetBlock_ibuf (s : State) : (s.resetBlock).ibuf = [] := rfl
@[simp] theorem State.resetBlock_obuf (s : State) : (s.resetBlock).obuf = [] := rfl
@[simp] theorem State.resetBlock_faulted (s : State) : (s.resetBlock).faulted = s.faulted := rfl
@[simp] theorem State.resetBlock_program (s : State) : (s.resetBlock).program = s.program := rfl
@[simp] theorem State.resetBlock_hostPos (s : State) : (s.resetBlock).hostPos = s.hostPos := rfl
@[simp] theorem State.resetBlock_recorded (s : State) : (s.resetBlock).recorded = s.recorded := rfl
@[simp] theorem State.resetBlock_turns (s : State) : (s.resetBlock).turns = s.turns := rfl
@[simp] theorem State.resetBlock_draws (s : State) : (s.resetBlock).draws = s.draws := rfl

/-! ### The schedule: State.scheduled and State.popTurn change the turns and the counter, and nothing else -/

theorem State.scheduled_eq (s : State) :
    s.scheduled = { s with turns := s.scheduled.turns, draws := s.scheduled.draws } := by
  unfold State.scheduled; split <;> rfl

theorem State.popTurn_eq (s : State) : s.popTurn = { s with turns := s.popTurn.turns, draws := s.popTurn.draws } := by
  unfold State.popTurn
  rw [State.scheduled_eq s]

@[simp] theorem State.scheduled_cfg (s : State) : s.scheduled.cfg = s.cfg := by rw [State.scheduled_eq]
@[simp] theorem State.scheduled_cmd (s : State) : s.scheduled.cmd = s.cmd := by rw [State.scheduled_eq]
@[simp] theorem State.scheduled_argAddr (s : State) : s.scheduled.argAddr = s.argAddr := by rw [State.scheduled_eq]
@[simp] theorem State.scheduled_argLen (s : State) : s.scheduled.argLen = s.argLen := by rw [State.scheduled_eq]
@[simp] theorem State.scheduled_tagIn (s : State) : s.scheduled.tagIn = s.tagIn := by rw [State.scheduled_eq]
@[simp] theorem State.scheduled_tag (s : State) : s.scheduled.tag = s.tag := by rw [State.scheduled_eq]
@[simp] theorem State.scheduled_tagValid (s : State) : s.scheduled.tagValid = s.tagValid := by rw [State.scheduled_eq]
@[simp] theorem State.scheduled_chType (s : State) : s.scheduled.chType = s.chType := by rw [State.scheduled_eq]
@[simp] theorem State.scheduled_chPoff (s : State) : s.scheduled.chPoff = s.chPoff := by rw [State.scheduled_eq]
@[simp] theorem State.scheduled_chLen (s : State) : s.scheduled.chLen = s.chLen := by rw [State.scheduled_eq]
@[simp] theorem State.scheduled_chValid (s : State) : s.scheduled.chValid = s.chValid := by rw [State.scheduled_eq]
@[simp] theorem State.scheduled_chCrc (s : State) : s.scheduled.chCrc = s.chCrc := by rw [State.scheduled_eq]
@[simp] theorem State.scheduled_crcAcc (s : State) : s.scheduled.crcAcc = s.crcAcc := by rw [State.scheduled_eq]
@[simp] theorem State.scheduled_outPtr (s : State) : s.scheduled.outPtr = s.outPtr := by rw [State.scheduled_eq]
@[simp] theorem State.scheduled_stCur (s : State) : s.scheduled.stCur = s.stCur := by rw [State.scheduled_eq]
@[simp] theorem State.scheduled_stEnd (s : State) : s.scheduled.stEnd = s.stEnd := by rw [State.scheduled_eq]
@[simp] theorem State.scheduled_stCount (s : State) : s.scheduled.stCount = s.stCount := by rw [State.scheduled_eq]
@[simp] theorem State.scheduled_stActive (s : State) : s.scheduled.stActive = s.stActive := by rw [State.scheduled_eq]
@[simp] theorem State.scheduled_endFlag (s : State) : s.scheduled.endFlag = s.endFlag := by rw [State.scheduled_eq]
@[simp] theorem State.scheduled_err (s : State) : s.scheduled.err = s.err := by rw [State.scheduled_eq]
@[simp] theorem State.scheduled_pending (s : State) : s.scheduled.pending = s.pending := by rw [State.scheduled_eq]
@[simp] theorem State.scheduled_ibuf (s : State) : s.scheduled.ibuf = s.ibuf := by rw [State.scheduled_eq]
@[simp] theorem State.scheduled_obuf (s : State) : s.scheduled.obuf = s.obuf := by rw [State.scheduled_eq]
@[simp] theorem State.scheduled_faulted (s : State) : s.scheduled.faulted = s.faulted := by rw [State.scheduled_eq]
@[simp] theorem State.scheduled_program (s : State) : s.scheduled.program = s.program := by rw [State.scheduled_eq]
@[simp] theorem State.scheduled_hostPos (s : State) : s.scheduled.hostPos = s.hostPos := by rw [State.scheduled_eq]
@[simp] theorem State.scheduled_recorded (s : State) : s.scheduled.recorded = s.recorded := by rw [State.scheduled_eq]

@[simp] theorem State.popTurn_cfg (s : State) : s.popTurn.cfg = s.cfg := s.scheduled_cfg
@[simp] theorem State.popTurn_cmd (s : State) : s.popTurn.cmd = s.cmd := s.scheduled_cmd
@[simp] theorem State.popTurn_argAddr (s : State) : s.popTurn.argAddr = s.argAddr := s.scheduled_argAddr
@[simp] theorem State.popTurn_argLen (s : State) : s.popTurn.argLen = s.argLen := s.scheduled_argLen
@[simp] theorem State.popTurn_tagIn (s : State) : s.popTurn.tagIn = s.tagIn := s.scheduled_tagIn
@[simp] theorem State.popTurn_tag (s : State) : s.popTurn.tag = s.tag := s.scheduled_tag
@[simp] theorem State.popTurn_tagValid (s : State) : s.popTurn.tagValid = s.tagValid := s.scheduled_tagValid
@[simp] theorem State.popTurn_chType (s : State) : s.popTurn.chType = s.chType := s.scheduled_chType
@[simp] theorem State.popTurn_chPoff (s : State) : s.popTurn.chPoff = s.chPoff := s.scheduled_chPoff
@[simp] theorem State.popTurn_chLen (s : State) : s.popTurn.chLen = s.chLen := s.scheduled_chLen
@[simp] theorem State.popTurn_chValid (s : State) : s.popTurn.chValid = s.chValid := s.scheduled_chValid
@[simp] theorem State.popTurn_chCrc (s : State) : s.popTurn.chCrc = s.chCrc := s.scheduled_chCrc
@[simp] theorem State.popTurn_crcAcc (s : State) : s.popTurn.crcAcc = s.crcAcc := s.scheduled_crcAcc
@[simp] theorem State.popTurn_outPtr (s : State) : s.popTurn.outPtr = s.outPtr := s.scheduled_outPtr
@[simp] theorem State.popTurn_stCur (s : State) : s.popTurn.stCur = s.stCur := s.scheduled_stCur
@[simp] theorem State.popTurn_stEnd (s : State) : s.popTurn.stEnd = s.stEnd := s.scheduled_stEnd
@[simp] theorem State.popTurn_stCount (s : State) : s.popTurn.stCount = s.stCount := s.scheduled_stCount
@[simp] theorem State.popTurn_stActive (s : State) : s.popTurn.stActive = s.stActive := s.scheduled_stActive
@[simp] theorem State.popTurn_endFlag (s : State) : s.popTurn.endFlag = s.endFlag := s.scheduled_endFlag
@[simp] theorem State.popTurn_err (s : State) : s.popTurn.err = s.err := s.scheduled_err
@[simp] theorem State.popTurn_pending (s : State) : s.popTurn.pending = s.pending := s.scheduled_pending
@[simp] theorem State.popTurn_ibuf (s : State) : s.popTurn.ibuf = s.ibuf := s.scheduled_ibuf
@[simp] theorem State.popTurn_obuf (s : State) : s.popTurn.obuf = s.obuf := s.scheduled_obuf
@[simp] theorem State.popTurn_faulted (s : State) : s.popTurn.faulted = s.faulted := s.scheduled_faulted
@[simp] theorem State.popTurn_program (s : State) : s.popTurn.program = s.program := s.scheduled_program
@[simp] theorem State.popTurn_hostPos (s : State) : s.popTurn.hostPos = s.hostPos := s.scheduled_hostPos
@[simp] theorem State.popTurn_recorded (s : State) : s.popTurn.recorded = s.recorded := s.scheduled_recorded

/-! ### afterSuccess -/

@[simp] theorem afterSuccess_cfg (s : State) : (afterSuccess s).cfg = s.cfg := rfl
@[simp] theorem afterSuccess_cmd (s : State) : (afterSuccess s).cmd = s.cmd := rfl
@[simp] theorem afterSuccess_argAddr (s : State) : (afterSuccess s).argAddr = s.argAddr := rfl
@[simp] theorem afterSuccess_argLen (s : State) : (afterSuccess s).argLen = s.argLen := rfl
@[simp] theorem afterSuccess_tagIn (s : State) : (afterSuccess s).tagIn = s.tagIn := rfl
@[simp] theorem afterSuccess_tag (s : State) : (afterSuccess s).tag = s.tag := rfl
@[simp] theorem afterSuccess_tagValid (s : State) : (afterSuccess s).tagValid = s.tagValid := rfl
@[simp] theorem afterSuccess_chType (s : State) : (afterSuccess s).chType = s.chType := rfl
@[simp] theorem afterSuccess_chPoff (s : State) : (afterSuccess s).chPoff = s.chPoff := rfl
@[simp] theorem afterSuccess_chLen (s : State) : (afterSuccess s).chLen = s.chLen := rfl
@[simp] theorem afterSuccess_chValid (s : State) : (afterSuccess s).chValid = s.chValid := rfl
@[simp] theorem afterSuccess_chCrc (s : State) : (afterSuccess s).chCrc = s.chCrc := rfl
@[simp] theorem afterSuccess_crcAcc (s : State) : (afterSuccess s).crcAcc = s.crcAcc := rfl
@[simp] theorem afterSuccess_outPtr (s : State) : (afterSuccess s).outPtr = s.outPtr := rfl
@[simp] theorem afterSuccess_stCur (s : State) : (afterSuccess s).stCur = s.stCur := rfl
@[simp] theorem afterSuccess_stEnd (s : State) : (afterSuccess s).stEnd = s.stEnd := rfl
@[simp] theorem afterSuccess_stCount (s : State) : (afterSuccess s).stCount = s.stCount := rfl
@[simp] theorem afterSuccess_stActive (s : State) : (afterSuccess s).stActive = s.stActive := rfl
@[simp] theorem afterSuccess_endFlag (s : State) : (afterSuccess s).endFlag = false := rfl
@[simp] theorem afterSuccess_err (s : State) : (afterSuccess s).err = none := rfl
@[simp] theorem afterSuccess_pending (s : State) : (afterSuccess s).pending = none := rfl
@[simp] theorem afterSuccess_ibuf (s : State) : (afterSuccess s).ibuf = s.ibuf := rfl
@[simp] theorem afterSuccess_obuf (s : State) : (afterSuccess s).obuf = s.obuf := rfl
@[simp] theorem afterSuccess_faulted (s : State) : (afterSuccess s).faulted = s.faulted := rfl
@[simp] theorem afterSuccess_program (s : State) : (afterSuccess s).program = s.program := rfl
@[simp] theorem afterSuccess_hostPos (s : State) : (afterSuccess s).hostPos = s.hostPos := rfl
@[simp] theorem afterSuccess_recorded (s : State) : (afterSuccess s).recorded = s.recorded := rfl
@[simp] theorem afterSuccess_turns (s : State) : (afterSuccess s).turns = s.turns := rfl
@[simp] theorem afterSuccess_draws (s : State) : (afterSuccess s).draws = s.draws := rfl

/-! ### afterError -/

@[simp] theorem afterError_cfg (e : CmdError) (s : State) : (afterError e s).cfg = s.cfg := rfl
@[simp] theorem afterError_cmd (e : CmdError) (s : State) : (afterError e s).cmd = s.cmd := rfl
@[simp] theorem afterError_argAddr (e : CmdError) (s : State) : (afterError e s).argAddr = s.argAddr := rfl
@[simp] theorem afterError_argLen (e : CmdError) (s : State) : (afterError e s).argLen = s.argLen := rfl
@[simp] theorem afterError_tagIn (e : CmdError) (s : State) : (afterError e s).tagIn = s.tagIn := rfl
@[simp] theorem afterError_tag (e : CmdError) (s : State) : (afterError e s).tag = s.tag := rfl
@[simp] theorem afterError_tagValid (e : CmdError) (s : State) : (afterError e s).tagValid = s.tagValid := rfl
@[simp] theorem afterError_chType (e : CmdError) (s : State) : (afterError e s).chType = s.chType := rfl
@[simp] theorem afterError_chPoff (e : CmdError) (s : State) : (afterError e s).chPoff = s.chPoff := rfl
@[simp] theorem afterError_chLen (e : CmdError) (s : State) : (afterError e s).chLen = s.chLen := rfl
@[simp] theorem afterError_chValid (e : CmdError) (s : State) : (afterError e s).chValid = s.chValid := rfl
@[simp] theorem afterError_chCrc (e : CmdError) (s : State) : (afterError e s).chCrc = s.chCrc := rfl
@[simp] theorem afterError_crcAcc (e : CmdError) (s : State) : (afterError e s).crcAcc = s.crcAcc := rfl
@[simp] theorem afterError_outPtr (e : CmdError) (s : State) : (afterError e s).outPtr = s.outPtr := rfl
@[simp] theorem afterError_stCur (e : CmdError) (s : State) : (afterError e s).stCur = s.stCur := rfl
@[simp] theorem afterError_stEnd (e : CmdError) (s : State) : (afterError e s).stEnd = s.stEnd := rfl
@[simp] theorem afterError_stCount (e : CmdError) (s : State) : (afterError e s).stCount = s.stCount := rfl
@[simp] theorem afterError_stActive (e : CmdError) (s : State) : (afterError e s).stActive = s.stActive := rfl
@[simp] theorem afterError_endFlag (e : CmdError) (s : State) : (afterError e s).endFlag = false := rfl
@[simp] theorem afterError_err (e : CmdError) (s : State) : (afterError e s).err = some e := rfl
@[simp] theorem afterError_pending (e : CmdError) (s : State) : (afterError e s).pending = none := rfl
@[simp] theorem afterError_ibuf (e : CmdError) (s : State) : (afterError e s).ibuf = s.ibuf := rfl
@[simp] theorem afterError_obuf (e : CmdError) (s : State) : (afterError e s).obuf = s.obuf := rfl
@[simp] theorem afterError_faulted (e : CmdError) (s : State) : (afterError e s).faulted = s.faulted := rfl
@[simp] theorem afterError_program (e : CmdError) (s : State) : (afterError e s).program = s.program := rfl
@[simp] theorem afterError_hostPos (e : CmdError) (s : State) : (afterError e s).hostPos = s.hostPos := rfl
@[simp] theorem afterError_recorded (e : CmdError) (s : State) : (afterError e s).recorded = s.recorded := rfl
@[simp] theorem afterError_turns (e : CmdError) (s : State) : (afterError e s).turns = s.turns := rfl
@[simp] theorem afterError_draws (e : CmdError) (s : State) : (afterError e s).draws = s.draws := rfl

end Sys2Proof.Machine
end

