-- ==== Sys2Proof/Laws/Ops.lean ====
section
/-!
SUPPORT. One lemma per shared operation, saying once everything it can do: the ends of a command, byte order, the letters,
the CRC fold, the operand reads, and `parse_chunk`.
-/

namespace Sys2Proof.Machine

/-! ### The ends of a command -/

theorem commit_eq (s : State) : commit s = .next (afterSuccess s) := rfl

theorem commitAtEnd_eq (s : State) : commitAtEnd s = .next { afterSuccess s with endFlag := true } := rfl

theorem raise_eq (e : CmdError) (s : State) : raise e s = .next (afterError e s) := rfl

theorem abort_eq (e : CmdError) (s : State) : abort e s = .next (afterError e { s with stActive := false }) := rfl

theorem commit_next_iff {s t : State} : commit s = .next t ↔ t = afterSuccess s := by
  simp [commit_eq, eq_comm]

theorem raise_next_iff {e : CmdError} {s t : State} : raise e s = .next t ↔ t = afterError e s := by
  simp [raise_eq, eq_comm]

theorem abort_next_iff {e : CmdError} {s t : State} :
    abort e s = .next t ↔ t = afterError e { s with stActive := false } := by
  simp [abort_eq, eq_comm]

theorem commitAtEnd_next_iff {s t : State} :
    commitAtEnd s = .next t ↔ t = { afterSuccess s with endFlag := true } := by
  simp [commitAtEnd_eq, eq_comm]

/-! ### Byte order and letters -/

@[simp] theorem bytesBe32_be32 (q : Quad) : bytesBe32 (be32 q) = q := by
  cases q
  simp only [bytesBe32, be32, Quad.mk.injEq]
  refine ⟨?_, ?_, ?_, ?_⟩ <;>
    · ext i hi
      simp [BitVec.getElem_extractLsb', BitVec.getLsbD_or, BitVec.getLsbD_shiftLeft, BitVec.getLsbD_setWidth]
      try grind

@[simp] theorem be32_bytesBe32 (v : Word) : be32 (bytesBe32 v) = v := by
  refine BitVec.eq_of_getLsbD_eq fun i hi => ?_
  simp only [be32, bytesBe32, BitVec.getLsbD_or, BitVec.getLsbD_shiftLeft, BitVec.getLsbD_setWidth,
    BitVec.getLsbD_extractLsb', hi, decide_true, Bool.true_and]
  rcases Nat.lt_or_ge i 8 with h | h
  · simp [h, show i < 24 by omega, show i < 16 by omega]
  rcases Nat.lt_or_ge i 16 with h' | h'
  · simp [Nat.not_lt.mpr h, h', show i < 24 by omega, show i - 8 < 8 by omega, show i - 8 < 32 by omega,
      show 8 + (i - 8) = i by omega]
  rcases Nat.lt_or_ge i 24 with h'' | h''
  · simp [Nat.not_lt.mpr h, Nat.not_lt.mpr h', h'', show ¬ i - 8 < 8 by omega, show i - 16 < 8 by omega,
      show i - 16 < 32 by omega, show 16 + (i - 16) = i by omega]
  · simp [Nat.not_lt.mpr h, Nat.not_lt.mpr h', Nat.not_lt.mpr h'', show ¬ i - 8 < 8 by omega,
      show ¬ i - 16 < 8 by omega, show i - 24 < 8 by omega, show i - 24 < 32 by omega,
      show 24 + (i - 24) = i by omega]

theorem be32_injective {q r : Quad} (h : be32 q = be32 r) : q = r := by
  rw [← bytesBe32_be32 q, h, bytesBe32_be32]

/-- The statements' bytes of a word are the model's. -/
theorem quadBytes_bytesBe32 (v : Word) : quadBytes (bytesBe32 v) = wordBytes v := rfl

theorem wordBytes_be32 (q : Quad) : wordBytes (be32 q) = quadBytes q := by
  rw [← quadBytes_bytesBe32, bytesBe32_be32]

@[simp] theorem wordBytes_length (v : Word) : (wordBytes v).length = 4 := rfl

theorem wordBytes_injective {v w : Word} (h : wordBytes v = wordBytes w) : v = w := by
  rw [← be32_bytesBe32 v, ← be32_bytesBe32 w]
  exact congrArg be32 (quadBytes_injective h)

theorem letter_iff (b : Byte) : letter b = true ↔ IsLetter b := by
  simp [letter, IsLetter, BitVec.le_def]

theorem letters4_bytesBe32 (v : Word) : letters4 (bytesBe32 v) = true ↔ LetterTag v := by
  simp only [letters4, Bool.and_eq_true, letter_iff, LetterTag]
  constructor
  · rintro ⟨⟨⟨h0, h1⟩, h2⟩, h3⟩ i hi
    match i, hi with
    | 0, _ => exact h0
    | 1, _ => exact h1
    | 2, _ => exact h2
    | 3, _ => exact h3
  · intro h
    exact ⟨⟨⟨h 0 (by omega), h 1 (by omega)⟩, h 2 (by omega)⟩, h 3 (by omega)⟩

theorem letters4_iff (q : Quad) : letters4 q = true ↔ LetterTag (be32 q) := by
  rw [← letters4_bytesBe32, bytesBe32_be32]

@[simp] theorem chunkBytes_length (len : Word) (t : Quad) (p : List Byte) (c : Word) :
    (chunkBytes len t p c).length = 12 + p.length := by
  simp [chunkBytes]; omega

theorem chunkBytes_eq (len ty : Word) (p : List Byte) (c : Word) :
    chunkBytes len (bytesBe32 ty) p c = recordBytes len ty p c := rfl

@[simp] theorem recordBytes_length (len ty : Word) (p : List Byte) (c : Word) :
    (recordBytes len ty p c).length = 12 + p.length := by
  simp [recordBytes]; omega

/-! ### CRC -/

@[simp] theorem crcFold_nil (c : Word) : crcFold c [] = c := rfl

@[simp] theorem crcFold_cons (c : Word) (b : Byte) (bs : List Byte) :
    crcFold c (b :: bs) = crcFold (crcStep c b) bs := rfl

/-- Feeding in pieces is feeding at once. -/
theorem crcFold_append (c : Word) (xs ys : List Byte) : crcFold c (xs ++ ys) = crcFold (crcFold c xs) ys := by
  simp [crcFold]

theorem chunkCrc_eq (ty : Word) (p : List Byte) : chunkCrc (bytesBe32 ty) p = crc32 (wordBytes ty ++ p) := rfl

/-! ### Operand reads -/

/-- A read of IBUF in a range inside it either faults at an unwritten cell or answers the bytes it holds. -/
theorem memRead_inside_cases (s : State) {a n : Nat} (h : a + n ≤ s.cfg.ibufSize) :
    (∃ bs, s.memRead a n = .ok bs ∧ bs.length = n ∧ Holds s.ibuf a bs) ∨
      (s.memRead a n = .error .unwrittenRead ∧ Unwritten s.ibuf a n) := by
  cases hr : s.memRead a n with
  | ok bs => exact .inl ⟨bs, rfl, (memRead_ok_iff.mp hr).1, (memRead_ok_iff.mp hr).2.2⟩
  | error f =>
    obtain ⟨hf, k, hk, hl⟩ := bufReadBytes_error_inside h hr
    exact .inr ⟨by rw [hf], k, hk, hl⟩

/-- The same for four bytes, read as a word. -/
theorem memRead4_inside_cases (s : State) {a : Nat} (h : a + 4 ≤ s.cfg.ibufSize) :
    (∃ v : Word, s.memRead4 a = .ok (bytesBe32 v) ∧ Holds s.ibuf a (wordBytes v)) ∨
      (s.memRead4 a = .error .unwrittenRead ∧ Unwritten s.ibuf a 4) := by
  cases hr : s.memRead4 a with
  | ok q =>
    refine .inl ⟨be32 q, by rw [bytesBe32_be32], ?_⟩
    rw [wordBytes_be32]
    exact (memRead4_ok_iff.mp hr).2
  | error f =>
    obtain ⟨hf, k, hk, hl⟩ := memRead4_error_inside h hr
    exact .inr ⟨by rw [hf], k, hk, hl⟩

/-- What a range holds is what a read of it answers. -/
theorem memRead_of_holds {s : State} {a n : Nat} {bs : List Byte} (h : n = 0 ∨ a + n ≤ s.cfg.ibufSize)
    (hlen : bs.length = n) (hh : Holds s.ibuf a bs) : s.memRead a n = .ok bs :=
  memRead_ok_iff.mpr ⟨hlen, h, hh⟩

theorem memRead4_of_holds {s : State} {a : Nat} {v : Word} (h : a + 4 ≤ s.cfg.ibufSize)
    (hh : Holds s.ibuf a (wordBytes v)) : s.memRead4 a = .ok (bytesBe32 v) :=
  memRead4_ok_iff.mpr ⟨h, hh⟩

theorem memRead_of_unwritten {s : State} {a n : Nat} (h : a + n ≤ s.cfg.ibufSize) (hu : Unwritten s.ibuf a n) :
    s.memRead a n = .error .unwrittenRead := by
  obtain ⟨k, hk, hl⟩ := hu
  exact bufReadBytes_unwritten h hk hl

theorem memRead4_of_unwritten {s : State} {a : Nat} (h : a + 4 ≤ s.cfg.ibufSize) (hu : Unwritten s.ibuf a 4) :
    s.memRead4 a = .error .unwrittenRead := by
  obtain ⟨k, hk, hl⟩ := hu
  exact memRead4_unwritten h hk hl

/-- A written range has no unwritten cell. -/
theorem holds_not_unwritten {m : Memory} {a : Nat} {bs : List Byte} (h : Holds m a bs) :
    ¬ Unwritten m a bs.length := by
  rintro ⟨k, hk, hl⟩
  have := h k hk
  rw [hl, List.getElem?_eq_getElem hk] at this
  cases this

/-! ### The chunk-record parser -/

/-- `parseBody` succeeds exactly on a range that holds a letter type, a payload and the matching CRC. -/
theorem parseBody_ok_iff {s : State} {a l : Nat} {r : ChunkRecord} (hin : a + 12 + l ≤ s.cfg.ibufSize) :
    s.parseBody a l = .ok r ↔
      ∃ (ty w : Word) (p : List Byte), p.length = l ∧ Holds s.ibuf (a + 4) (wordBytes ty) ∧ LetterTag ty ∧
        Holds s.ibuf (a + 8) p ∧ Holds s.ibuf (a + 8 + l) (wordBytes w) ∧ w = crc32 (wordBytes ty ++ p) ∧
        r = { chType := ty, chPoff := BitVec.ofNat 32 (a + 8), chLen := BitVec.ofNat 32 l, chCrc := w } := by
  constructor
  · intro h
    unfold State.parseBody at h
    rcases memRead4_inside_cases s (show a + 4 + 4 ≤ _ by omega) with ⟨ty, hty, hht⟩ | ⟨hf, -⟩
    · simp only [hty] at h
      split at h
      · cases h
      · rename_i hl4
        rcases memRead_inside_cases s (show a + 8 + l ≤ _ by omega) with ⟨p, hp, hplen, hhp⟩ | ⟨hf, -⟩
        · simp only [hp] at h
          rcases memRead4_inside_cases s (show a + 8 + l + 4 ≤ _ by omega) with ⟨w, hw, hhw⟩ | ⟨hf, -⟩
          · simp only [hw, be32_bytesBe32, chunkCrc_eq] at h
            split at h
            · cases h
            · rename_i hc
              have hc' := Decidable.not_not.mp hc
              refine ⟨ty, w, p, hplen, hht, (letters4_bytesBe32 ty).mp (by simpa using hl4), hhp, hhw, hc', ?_⟩
              rw [hc']
              exact (Except.ok.inj h).symm
          · simp [hf] at h
        · simp [hf] at h
    · simp [hf] at h
  · rintro ⟨ty, w, p, hplen, hht, hl4, hhp, hhw, hc, rfl⟩
    unfold State.parseBody
    rw [memRead4_of_holds (by omega) hht, memRead_of_holds (.inr (by omega)) hplen hhp,
      memRead4_of_holds (by omega) hhw]
    simp [(letters4_bytesBe32 ty).mpr hl4, chunkCrc_eq, hc]

/-- The errors `parseBody` raises, and the one way it faults, on a range inside IBUF. -/
theorem parseBody_error {s : State} {a l : Nat} {x : ParseStop} (hin : a + 12 + l ≤ s.cfg.ibufSize)
    (h : s.parseBody a l = .error x) :
    x = .fault .unwrittenRead ∨ x = .error .invalidChunkType ∨ x = .error .invalidCrc := by
  unfold State.parseBody at h
  rcases memRead4_inside_cases s (show a + 4 + 4 ≤ _ by omega) with ⟨ty, hty, -⟩ | ⟨hf, -⟩
  · simp only [hty] at h
    split at h
    · cases h; simp
    · rcases memRead_inside_cases s (show a + 8 + l ≤ _ by omega) with ⟨p, hp, -, -⟩ | ⟨hf, -⟩
      · simp only [hp] at h
        rcases memRead4_inside_cases s (show a + 8 + l + 4 ≤ _ by omega) with ⟨w, hw, -⟩ | ⟨hf, -⟩
        · simp only [hw] at h
          split at h
          · cases h; simp
          · cases h
        · simp only [hf] at h; cases h; simp
      · simp only [hf] at h; cases h; simp
  · simp only [hf] at h; cases h; simp

/-- `parseChunk` on a span of exactly the wire size of its LENGTH field goes on to the body. -/
theorem parseChunk_of_length {s : State} {a n : Nat} {l : Word} (hin : a + 4 ≤ s.cfg.ibufSize)
    (hl : Holds s.ibuf a (wordBytes l)) (hn : n = l.toNat + 12) : s.parseChunk a n = s.parseBody a l.toNat := by
  unfold State.parseChunk
  rw [if_neg (by omega), memRead4_of_holds hin hl]
  simp [hn]

/-- `parseChunk` succeeds exactly on a range that holds a whole record. -/
theorem parseChunk_ok_iff {s : State} {a n : Nat} {r : ChunkRecord} (hin : a + n ≤ s.cfg.ibufSize) :
    s.parseChunk a n = .ok r ↔
      ∃ (l ty w : Word) (p : List Byte), n = l.toNat + 12 ∧ p.length = l.toNat ∧
        Holds s.ibuf a (recordBytes l ty p w) ∧ LetterTag ty ∧ w = crc32 (wordBytes ty ++ p) ∧
        r = { chType := ty, chPoff := BitVec.ofNat 32 (a + 8), chLen := l, chCrc := w } := by
  constructor
  · intro h
    have h4 : 4 ≤ n := by
      by_contra hlt
      unfold State.parseChunk at h
      rw [if_pos (by omega)] at h
      cases h
    rcases memRead4_inside_cases s (show a + 4 ≤ _ by omega) with ⟨l, hl, hhl⟩ | ⟨hf, -⟩
    · by_cases hn : n = l.toNat + 12
      · rw [parseChunk_of_length (by omega) hhl hn, parseBody_ok_iff (by omega)] at h
        obtain ⟨ty, w, p, hplen, hht, hl4, hhp, hhw, hc, rfl⟩ := h
        refine ⟨l, ty, w, p, hn, hplen, ?_, hl4, hc, by simp⟩
        simp only [recordBytes, holds_append_iff, List.length_append, wordBytes_length]
        refine ⟨⟨⟨hhl, hht⟩, hhp⟩, ?_⟩
        rwa [show a + (4 + 4 + p.length) = a + 8 + l.toNat by omega]
      · unfold State.parseChunk at h
        rw [if_neg (by omega), hl] at h
        simp [hn] at h
    · unfold State.parseChunk at h
      rw [if_neg (by omega), hf] at h
      cases h
  · rintro ⟨l, ty, w, p, hn, hplen, hh, hl4, hc, rfl⟩
    simp only [recordBytes, holds_append_iff, List.length_append, wordBytes_length] at hh
    obtain ⟨⟨⟨hhl, hht⟩, hhp⟩, hhw⟩ := hh
    rw [parseChunk_of_length (by omega) hhl hn, parseBody_ok_iff (by omega)]
    refine ⟨ty, w, p, hplen, hht, hl4, hhp, ?_, hc, by simp⟩
    rwa [show a + 8 + l.toNat = a + (4 + 4 + p.length) by omega]

/-- Whatever the range, `parseBody` stops with a fault or one of two errors. -/
theorem parseBody_stop {s : State} {a l : Nat} {x : ParseStop} (h : s.parseBody a l = .error x) :
    (∃ f, x = .fault f) ∨ x = .error .invalidChunkType ∨ x = .error .invalidCrc := by
  unfold State.parseBody at h
  (repeat' split at h) <;> cases h <;> simp

/-- Whatever the range, `parseChunk` stops with a fault or one of three errors. -/
theorem parseChunk_stop {s : State} {a n : Nat} {x : ParseStop} (h : s.parseChunk a n = .error x) :
    (∃ f, x = .fault f) ∨ x = .error .lengthMismatch ∨ x = .error .invalidChunkType ∨ x = .error .invalidCrc := by
  unfold State.parseChunk at h
  split at h
  · cases h; simp
  · split at h
    · cases h; simp
    · split at h
      · cases h; simp
      · rcases parseBody_stop h with h | h | h <;> simp [h]

/-- The errors `parseChunk` raises, and the one way it faults, on a range inside IBUF. -/
theorem parseChunk_error {s : State} {a n : Nat} {x : ParseStop} (hin : a + n ≤ s.cfg.ibufSize)
    (h : s.parseChunk a n = .error x) :
    x = .fault .unwrittenRead ∨ x = .error .lengthMismatch ∨ x = .error .invalidChunkType
      ∨ x = .error .invalidCrc := by
  by_cases h4 : n < 4
  · unfold State.parseChunk at h
    rw [if_pos h4] at h
    cases h; simp
  · rcases memRead4_inside_cases s (show a + 4 ≤ _ by omega) with ⟨l, hl, hhl⟩ | ⟨hf, -⟩
    · by_cases hn : n = l.toNat + 12
      · rw [parseChunk_of_length (by omega) hhl hn] at h
        rcases parseBody_error (by omega) h with h | h | h <;> simp [h]
      · unfold State.parseChunk at h
        rw [if_neg h4, hl] at h
        simp only [be32_bytesBe32, ne_eq, hn, not_false_eq_true, if_true] at h
        cases h; simp
    · unfold State.parseChunk at h
      rw [if_neg h4, hf] at h
      cases h; simp

end Sys2Proof.Machine
end

