-- ==== Sys2Proof/Laws/PerInstr.lean ====
section
/-!
SUPPORT. The family of statements made per command: the command's word is legal (R73) and has a zero MBZ field (R70).
-/

namespace Sys2Proof.Laws.Encoding

/-- Command `i` is well-formed: its word is legal by R73, and its MBZ field is zero (R70). -/
def Statement (i : Instr) : Prop := i.WellFormed ∧ mbzField (encode i) = 0

theorem crcInit : Statement .crcInit := by unfold Statement; decide
theorem crcFeed : Statement .crcFeed := by unfold Statement; decide
theorem tagConstruct : Statement .tagConstruct := by unfold Statement; decide
theorem tagParse : Statement .tagParse := by unfold Statement; decide
theorem chunkSet : Statement .chunkSet := by unfold Statement; decide
theorem chunkCrc : Statement .chunkCrc := by unfold Statement; decide
theorem chunkSerialize : Statement .chunkSerialize := by unfold Statement; decide
theorem chunkParse : Statement .chunkParse := by unfold Statement; decide
theorem streamOpen : Statement .streamOpen := by unfold Statement; decide
theorem streamNext : Statement .streamNext := by unfold Statement; decide
theorem sigEmit : Statement .sigEmit := by unfold Statement; decide

end Sys2Proof.Laws.Encoding
end

