-- ==== Sys2Proof/Laws/Step.lean ====
section
/-!
SUPPORT. What a step, a completion, a move of the host and a transaction can do when they answer a next state, each said once.
-/

namespace Sys2Proof.Machine

/-! ### The schedule -/

/-- A list of turns with a turn left is taken as it stands. -/
theorem scheduled_of_turns {s : State} {a : Agent} {r : List Agent} (h : s.turns = a :: r) : s.scheduled = s := by
  simp [State.scheduled, h]

/-- With nothing pending no free delay is taken. -/
theorem scheduled_of_idle {s : State} (h : s.pending = none) : s.scheduled = s := by
  simp [State.scheduled, h]

/-- With no turn left and a command pending, a free delay is taken. -/
theorem scheduled_of_pending {s : State} {w : Word} (h : s.turns = []) (hp : s.pending = some w) :
    s.scheduled = { s with
      turns := List.replicate (Config.completionDelay s.draws) .host ++ [.engine], draws := s.draws + 1 } := by
  simp [State.scheduled, h, hp]

theorem mover_of_turns {s : State} {a : Agent} {r : List Agent} (h : s.turns = a :: r) : s.mover = a := by
  simp [State.mover, scheduled_of_turns h, h]

theorem popTurn_of_turns {s : State} {a : Agent} {r : List Agent} (h : s.turns = a :: r) :
    s.popTurn = { s with turns := r } := by
  simp [State.popTurn, scheduled_of_turns h, h]

/-- The free part of the schedule ends in a turn of the engine, so it is never empty. -/
theorem scheduled_turns_ne_nil {s : State} {w : Word} (hp : s.pending = some w) : s.scheduled.turns ≠ [] := by
  cases h : s.turns with
  | nil => simp [scheduled_of_pending h hp]
  | cons a r => simp [scheduled_of_turns h, h]

/-- A step in which the engine or the host moves, as its completion or its move. -/
theorem step_of_engine {s : State} (hf : s.faulted = none) (hm : s.mover = .engine) : step s = complete s.popTurn := by
  simp [step, event, hf, hm]

theorem step_of_host {s : State} (hf : s.faulted = none) (hm : s.mover = .host) : step s = hostMove s.popTurn := by
  simp [step, event, hf, hm]

/-! ### The step and its parts -/

/-- A step that answers a next state is one event of an unfaulted state: a completion or a move of the host. -/
theorem step_next_cases {s t : State} (h : step s = .next t) :
    s.faulted = none ∧
      ((s.mover = .engine ∧ complete s.popTurn = .next t) ∨ (s.mover = .host ∧ hostMove s.popTurn = .next t)) := by
  unfold step event at h
  cases hf : s.faulted with
  | some f => simp [hf] at h
  | none =>
    cases hm : s.mover with
    | engine => simpa [hf, hm] using h
    | host => simpa [hf, hm] using h

/-- A completion: nothing pending, the pending word's outcome, or a model fault of it. -/
theorem complete_next_cases {s t : State} (h : complete s = .next t) :
    (s.pending = none ∧ t = s) ∨
      ∃ w, s.pending = some w ∧
        (runWord w s = .next t ∨ ∃ f, runWord w s = .fault f ∧ t = s.faultCommand f) := by
  unfold complete at h
  cases hp : s.pending with
  | none => simp only [hp] at h; cases h; exact .inl ⟨rfl, rfl⟩
  | some w =>
    simp only [hp] at h
    refine .inr ⟨w, rfl, ?_⟩
    split at h
    · cases h; exact .inl ‹_›
    · cases h; exact .inr ⟨_, ‹_›, rfl⟩
    · cases h

/-- A pending word that answers a next state is illegal, and reported, or runs its command. -/
theorem runWord_next_cases {w : Word} {s t : State} (h : runWord w s = .next t) :
    (∃ d, decode w = .error d ∧ t = afterError .illegalCommand s) ∨ ∃ i, decode w = .ok i ∧ exec i s = .next t := by
  unfold runWord at h
  cases hd : decode w with
  | error d => simp only [hd] at h; exact .inl ⟨d, rfl, raise_next_iff.mp h⟩
  | ok i => simp only [hd] at h; exact .inr ⟨i, rfl, h⟩

/-- A host transaction that answers a next state: issue, one operand register, one cell of IBUF, one recorded value, or reset. -/
theorem perform_next_cases {x : Txn} {s t : State} (h : perform x s = .next t) :
    (s.busy = false ∧ ∃ w, t = s.issue w) ∨
      (s.busy = false ∧ ∃ v, t = { s with argAddr := v }) ∨
      (s.busy = false ∧ ∃ v, t = { s with argLen := v }) ∨
      (s.busy = false ∧ ∃ v, t = { s with tagIn := v }) ∨
      (s.busy = false ∧ ∃ v, t = { s with outPtr := v }) ∨
      (s.busy = false ∧ ∃ a b, a < s.cfg.ibufSize ∧ t = { s with ibuf := memWrite s.ibuf a b }) ∨
      (∃ r, t = s.record r) ∨ (x = .reset ∧ t = s.resetBlock) := by
  cases x with
  | regWrite width off v =>
    simp only [perform, hostRegWrite] at h
    split at h
    · cases h
    · rename_i hb
      have hb : s.busy = false := by simpa using hb
      split at h
      · cases h
      · split at h <;> cases h <;> simp [hb]
  | regRead width off =>
    simp only [perform, hostRegRead] at h
    split at h
    · cases h
    · split at h
      · cases h
      · cases h; simp
  | ibufWrite a b =>
    simp only [perform, hostIbufWrite] at h
    split at h
    · cases h
    · rename_i hb
      split at h
      · cases h
      · rename_i ha
        cases h
        refine .inr (.inr (.inr (.inr (.inr (.inl ⟨by simpa using hb, a, b, by omega, rfl⟩)))))
  | ibufRead a =>
    simp only [perform, hostIbufRead] at h
    split at h <;> cases h
    simp
  | obufRead a =>
    simp only [perform, hostObufRead] at h
    split at h <;> cases h
    simp
  | reset => simp only [perform] at h; cases h; simp

/-- A host transaction never refuses. -/
theorem perform_ne_refused (x : Txn) (s : State) (r : Refusal) : perform x s ≠ .refused r := by
  cases x <;> simp only [perform, hostRegWrite, hostRegRead, hostIbufWrite, hostIbufRead, hostObufRead] <;>
    (repeat' split) <;> simp

/-- A move of the host: no line left, a branch, a transaction, or a transaction that faults. -/
theorem hostMove_next_cases {s t : State} (h : hostMove s = .next t) :
    t = s ∨ (∃ p, t = { s with hostPos := p }) ∨
      ∃ x, s.program[s.hostPos]? = some (.txn x) ∧
        ((∃ u, perform x s = .next u ∧ t = u.nextLine) ∨ ∃ f, perform x s = .fault f ∧ t = s.markFault f) := by
  unfold hostMove at h
  split at h
  · cases h; exact .inl rfl
  · split at h <;> cases h
    · exact .inr (.inl ⟨_, rfl⟩)
    · exact .inr (.inl ⟨_, rfl⟩)
  · rename_i x hx
    refine .inr (.inr ⟨x, hx, ?_⟩)
    split at h
    · cases h; exact .inl ⟨_, ‹_›, rfl⟩
    · cases h; exact .inr ⟨_, ‹_›, rfl⟩
    · cases h

/-- The run of the statements is the host interface's run of the machine. -/
theorem runSteps_eq_run (k : Nat) (s : State) : runSteps k s = Host.Core.run Sys2Proof.core k s := by
  induction k generalizing s with
  | zero => rfl
  | succ k ih => cases h : step s <;> simp [runSteps, Host.Core.run, core, h, ih]

end Sys2Proof.Machine
end

