-- ==== Sys2Proof/Tests/Slice0.lean ====
section
/-!
SUPPORT. Tests against the words, examples and vectors of spec/ (the rule or vector each comes from is named), the smoke test of
the well-formedness checks, and for every statement with hypotheses a witness that they can be met together.
-/

namespace Sys2Proof.Tests

-- One theorem after another: elaborated side by side, the kernel evaluations below hold some forty threads' stacks at once.
set_option Elab.async false

open Sys2Proof.Machine

/-! ### Builders -/

/-- `s` with `bs` in IBUF at `a`. -/
def withIbuf (a : Nat) (bs : List Byte) (s : State) : State := { s with ibuf := memWriteBytes s.ibuf a bs }

/-- `s` with the ARG range set. -/
def withArgs (a n : Word) (s : State) : State := { s with argAddr := a, argLen := n }

/-- The next state of a result, and whether `p` holds of it. -/
def nextIs (r : Result) (p : State → Bool) : Bool :=
  match r with
  | .next t => p t
  | _ => false

/-- Whether a result is the given fault. -/
def faultIs (r : Result) (f : Fault) : Bool :=
  match r with
  | .fault g => g == f
  | _ => false

/-- What STATUS and one register read as. -/
def reads (t : State) (status : Word) (r : Reg) (v : Word) : Bool :=
  t.regValue .status == status && t.regValue r == v

/-- "123456789" -/
def digits : List Byte := [0x31, 0x32, 0x33, 0x34, 0x35, 0x36, 0x37, 0x38, 0x39]

/-- PA, the 42-byte payload of Scenario A (95_test_vectors.md). -/
def pa : List Byte :=
  [0x54, 0x68, 0x69, 0x73, 0x20, 0x69, 0x73, 0x20, 0x77, 0x68, 0x65, 0x72, 0x65, 0x20, 0x79, 0x6f, 0x75, 0x72, 0x20,
   0x73, 0x65, 0x63, 0x72, 0x65, 0x74, 0x20, 0x6d, 0x65, 0x73, 0x73, 0x61, 0x67, 0x65, 0x20, 0x77, 0x69, 0x6c, 0x6c,
   0x20, 0x62, 0x65, 0x21]

/-- WA, Scenario A's 54-byte record (V-L1a). -/
def wa : List Byte :=
  [0x00, 0x00, 0x00, 0x2a, 0x52, 0x75, 0x53, 0x74] ++ pa ++ [0xab, 0xd1, 0xd8, 0x4e]

/-- The record of "RuSt" with payload "hi" (from S3). -/
def hiRecord : List Byte :=
  [0x00, 0x00, 0x00, 0x02, 0x52, 0x75, 0x53, 0x74, 0x68, 0x69, 0xd2, 0xbc, 0x3f, 0x73]

/-- The record of "IEND" with an empty payload (V-K10). -/
def iendRecord : List Byte := [0x00, 0x00, 0x00, 0x00, 0x49, 0x45, 0x4e, 0x44, 0xae, 0x42, 0x60, 0x82]

/-- The signature bytes (R170). -/
def sigBytes : List Byte := [0x89, 0x50, 0x4e, 0x47, 0x0d, 0x0a, 0x1a, 0x0a]

/-- S3, the 34-byte stream of 95_test_vectors.md §6. -/
def s3 : List Byte := sigBytes ++ hiRecord ++ iendRecord

/-- `bs` in IBUF at 0 and the ARG range `[a, a + n)`, from reset. -/
def load (bs : List Byte) (a n : Word) : State := withArgs a n (withIbuf 0 bs State.reset)

/-- The tag "RuSt" constructed, from reset. -/
def tagged : State := { State.reset with tag := 0x52755374, tagValid := true }

/-- The Scenario A chunk as the descriptor, its payload at 0x80 (V-K14). -/
def chunked : State :=
  { withIbuf 0x80 pa tagged with chType := 0x52755374, chPoff := 0x80, chLen := 42, chValid := true }

/-- S3 opened at 0 (V-S1). -/
def opened : State :=
  { withIbuf 0 s3 State.reset with stCur := 8, stEnd := 34, stActive := true }

/-! ### Decoding: words written out bit by bit from R71, one family after another -/

theorem test_decode_crcFeed : decode 0b00000000000000000000000000000010#32 = .ok .crcFeed := by decide
theorem test_decode_tagParse : decode 0b00000000000000000000000000010001#32 = .ok .tagParse := by decide
theorem test_decode_chunkSerialize : decode 0b00000000000000000000000000100010#32 = .ok .chunkSerialize := by decide
theorem test_decode_streamNext : decode 0b00000000000000000000000000110001#32 = .ok .streamNext := by decide

/-- V-D2: every legal word, through the table's numbering of bits. -/
theorem test_decode_table :
    [0x01, 0x02, 0x10, 0x11, 0x20, 0x21, 0x22, 0x23, 0x30, 0x31, 0x32].map (decodeTableWord 32)
      = [some .crcInit, some .crcFeed, some .tagConstruct, some .tagParse, some .chunkSet, some .chunkCrc,
         some .chunkSerialize, some .chunkParse, some .streamOpen, some .streamNext, some .sigEmit] := by decide

/-- V-D1: each illegal word is rejected, by name. -/
theorem test_decode_illegal :
    decode 0x00000000#32 = .error (.reservedOpcode 0x00) ∧ decode 0x00000003#32 = .error (.reservedOpcode 0x03)
      ∧ decode 0x000000FF#32 = .error (.reservedOpcode 0xFF) ∧ decode 0x00000024#32 = .error (.reservedOpcode 0x24)
      ∧ decode 0x00000033#32 = .error (.reservedOpcode 0x33) ∧ decode 0x00000100#32 = .error (.mbzNonzero 0x000001)
      ∧ decode 0x00000120#32 = .error (.mbzNonzero 0x000001)
      ∧ decode 0x80000001#32 = .error (.mbzNonzero 0x800000) := by decide

/-! ### Well-formedness: an ill-formed term for each check, which the check refuses -/

theorem test_wf_command_word :
    legalWord 0x00000031 = true ∧ legalWord 0x00000100 = false ∧ legalWord 0x00000012 = false := by decide

theorem test_wf_config :
    Config.vectors.Wf ∧ ¬ Config.Wf ⟨11, 8⟩ ∧ ¬ Config.Wf ⟨0x100000000, 8⟩ ∧ ¬ Config.Wf ⟨12, 7⟩
      ∧ ¬ Config.Wf ⟨12, 0x100000000⟩ ∧ Config.Wf ⟨12, 8⟩ := by decide

theorem test_wf_reg_access :
    RegAccessOk 32 0x40 ∧ ¬ RegAccessOk 8 0x40 ∧ ¬ RegAccessOk 32 0x42 ∧ ¬ RegAccessOk 32 0x44
      ∧ ¬ RegAccessOk 32 0x100 := by decide

theorem test_wf_transaction :
    Txn.wf Config.vectors (.regWrite 32 0x34 0) = true ∧ Txn.wf Config.vectors (.regWrite 16 0x34 0) = false
      ∧ Txn.wf Config.vectors (.regWrite 32 0x04 0) = false ∧ Txn.wf Config.vectors (.regRead 32 0x04) = true
      ∧ Txn.wf Config.vectors (.regRead 32 0x02) = false ∧ Txn.wf Config.vectors (.regRead 8 0x04) = false
      ∧ Txn.wf Config.vectors (.regRead 32 0x44) = false ∧ Txn.wf Config.vectors (.ibufWrite 256 0) = false
      ∧ Txn.wf Config.vectors (.ibufRead 256) = false ∧ Txn.wf Config.vectors (.obufRead 256) = false
      ∧ Txn.wf Config.vectors .reset = true := by decide

theorem test_wf_memory :
    Memory.wf [(1, 0x00), (3, 0xFF)] ∧ ¬ Memory.wf [(3, 0x00), (1, 0xFF)] ∧ ¬ Memory.wf [(1, 0x00), (1, 0xFF)] := by
  decide

/-! ### The CRC function, the letters, the flag word, the register map -/

/-- V-C1. -/
theorem test_crcStep :
    crcStep 0xFFFFFFFF 0x52 = 0xA89820AA ∧ crcStep 0x00000000 0x01 = 0x77073096
      ∧ crcStep 0x12345678 0xAB = 0x1FC8B738 := by decide +kernel

/-- V-C2, and Scenario A's value (V-L1a), the source's one CRC. -/
theorem test_crc32 :
    crc32 [] = 0 ∧ crc32 digits = 0xCBF43926 ∧ crc32 [0x49, 0x45, 0x4e, 0x44] = 0xAE426082
      ∧ crc32 ([0x52, 0x75, 0x53, 0x74] ++ pa) = 0xABD1D84E := by decide +kernel

/-- V-T1, the 16 case combinations. -/
theorem test_flagsWord :
    [0x52555354, 0x52555374, 0x52557354, 0x52557374, 0x52755354, 0x52755374, 0x52757354, 0x52757374, 0x72555354,
     0x72555374, 0x72557354, 0x72557374, 0x72755354, 0x72755374, 0x72757354, 0x72757374].map flagsWord
      = [0x17, 0x1F, 0x03, 0x0B, 0x15, 0x1D, 0x01, 0x09, 0x16, 0x1E, 0x02, 0x0A, 0x14, 0x1C, 0x00, 0x08] := by
  decide +kernel

/-- The boundary letters of V-G1. -/
theorem test_letter :
    [0x40, 0x41, 0x5A, 0x5B, 0x60, 0x61, 0x7A, 0x7B, 0xC1, 0x20, 0x31].map letter
      = [false, true, true, false, false, true, true, false, false, false, false] := by decide

/-- R21: the registers at their offsets; reserved and misaligned offsets hold none. -/
theorem test_regAt :
    [0x00, 0x04, 0x18, 0x30, 0x34, 0x40, 0x44, 0x02, 0x100].map regAt
      = [some .cmd, some .status, some .tagFlags, some .crcOut, some .outPtr, some .stCount, none, none, none] := by
  decide

/-! ### The commands, one step each, against their rules' examples and vectors -/

/-- R125. -/
theorem test_crcInit :
    nextIs (exec .crcInit { State.reset with crcAcc := 0x641C1F5C }) (reads · 0x0000 .crcOut 0) = true := by
  decide +kernel

/-- V-C3 step 6, and step 4 (RangeError: 250 + 7 = 257). -/
theorem test_crcFeed :
    nextIs (exec .crcFeed (load digits 0 9)) (reads · 0x0000 .crcOut 0xCBF43926) = true
      ∧ nextIs (exec .crcFeed (load digits 250 7)) (reads · 0x1100 .crcOut 0) = true := by decide +kernel

/-- V-C3 step 3 (the empty range at the end of IBUF) and V-C6 (an unwritten byte). -/
theorem test_crcFeed_edges :
    nextIs (exec .crcFeed (load digits 256 0)) (reads · 0x0000 .crcOut 0) = true
      ∧ faultIs (exec .crcFeed (withArgs 0 4 State.reset)) .unwrittenRead = true := by decide +kernel

/-- R105: "RuSt" and "Ru1t". -/
theorem test_tagConstruct :
    nextIs (exec .tagConstruct { State.reset with tagIn := 0x52755374 }) (reads · 0x0004 .tagFlags 0x1D) = true
      ∧ nextIs (exec .tagConstruct { tagged with tagIn := 0x52753174 }) (reads · 0x0104 .tag 0x52755374) = true := by
  decide +kernel

/-- V-L1b ("Rust") and V-G2's range check before the length check (254 + 4 > 256). -/
theorem test_tagParse :
    nextIs (exec .tagParse (load [0x52, 0x75, 0x73, 0x74] 0 4)) (reads · 0x0004 .tagFlags 0x09) = true
      ∧ nextIs (exec .tagParse (withArgs 254 4 State.reset)) (reads · 0x1100 .tag 0) = true
      ∧ nextIs (exec .tagParse (withArgs 256 0 State.reset)) (reads · 0x0200 .tag 0) = true := by decide +kernel

/-- V-K14 steps 3, 5 and 6. -/
theorem test_chunkSet :
    nextIs (exec .chunkSet State.reset) (reads · 0x1300 .chType 0) = true
      ∧ nextIs (exec .chunkSet (withArgs 0x80 42 tagged)) (reads · 0x000C .chPoff 0x80) = true
      ∧ nextIs (exec .chunkSet (withArgs 200 57 chunked)) (reads · 0x110C .chPoff 0x80) = true := by decide +kernel

/-- V-K14 step 7. -/
theorem test_chunkCrc :
    nextIs (exec .chunkCrc chunked) (reads · 0x000C .chCrc 0xABD1D84E) = true := by decide +kernel

/-- V-K14 step 8: OBUF[0..54) is WA. -/
theorem test_chunkSerialize :
    nextIs (exec .chunkSerialize chunked)
      (fun t => reads t 0x000C .outPtr 0x36 && (bufReadBytes 256 t.obuf 0 54 matches .ok _)
        && (List.range 54).all (fun k => memLookup t.obuf k == wa[k]?)) = true := by decide +kernel

/-- V-K16: with OBUF_SIZE 60, OUT_PTR 7 overflows and OUT_PTR 6 fits exactly. -/
theorem test_chunkSerialize_overflow :
    nextIs (exec .chunkSerialize { chunked with cfg := ⟨256, 60⟩, outPtr := 7 }) (reads · 0x120C .outPtr 7) = true
      ∧ nextIs (exec .chunkSerialize { chunked with cfg := ⟨256, 60⟩, outPtr := 6 }) (reads · 0x000C .outPtr 0x3C)
        = true := by decide +kernel

/-- V-K1, V-K2. -/
theorem test_chunkParse :
    nextIs (exec .chunkParse (load wa 0 54))
      (fun t => reads t 0x0008 .chType 0x52755374 && t.chPoff == 0x08 && t.chLen == 0x2A && t.chCrc == 0xABD1D84E) = true
      ∧ nextIs (exec .chunkParse (load wa 0 53)) (reads · 0x0400 .chType 0) = true := by decide +kernel

/-- V-K9 (two defects: the type check comes first), V-K7 and V-K12 (LENGTH 0xFFFFFFF4 does not wrap). -/
theorem test_chunkParse_errors :
    nextIs (exec .chunkParse (load ((wa.set 6 0x31).set 53 0x00) 0 54)) (reads · 0x0600 .chType 0) = true
      ∧ nextIs (exec .chunkParse (load (wa.set 53 0x4F) 0 54)) (reads · 0x0500 .chType 0) = true
      ∧ nextIs (exec .chunkParse (load [0xff, 0xff, 0xff, 0xf4, 0x52, 0x75, 0x53, 0x74, 0, 0, 0, 0] 0 12))
          (reads · 0x0400 .chType 0) = true := by decide +kernel

/-- V-S3 and R171's example. -/
theorem test_streamOpen :
    nextIs (exec .streamOpen (load sigBytes 0 8)) (fun t => reads t 0x0010 .stCur 8 && t.stEnd == 8) = true
      ∧ nextIs (exec .streamOpen (load (sigBytes.set 7 0x0b) 0 8)) (reads · 0x0300 .stCur 0) = true
      ∧ nextIs (exec .streamOpen (withArgs 0 7 State.reset)) (reads · 0x0300 .stCur 0) = true := by decide +kernel

/-- R172's example, first call and the exhausted stream. -/
theorem test_streamNext :
    nextIs (exec .streamNext opened)
      (fun t => reads t 0x0018 .stCur 0x16 && t.chType == 0x52755374 && t.chPoff == 0x10 && t.chLen == 2
        && t.chCrc == 0xD2BC3F73 && t.stCount == 1) = true
      ∧ nextIs (exec .streamNext { opened with stCur := 34 }) (reads · 0x0002 .stCur 34) = true := by decide +kernel

/-- V-S8, V-S4 (k = 4 zero bytes after the first chunk) and V-S6 (type "IE1D"). -/
theorem test_streamNext_errors :
    nextIs (exec .streamNext State.reset) (reads · 0x1500 .stCur 0) = true
      ∧ nextIs (exec .streamNext
          { withIbuf 0 (sigBytes ++ hiRecord ++ [0, 0, 0, 0]) State.reset with stCur := 0x16, stEnd := 26, stActive := true })
          (reads · 0x0400 .stCur 0x16) = true
      ∧ nextIs (exec .streamNext
          { withIbuf 0 (sigBytes ++ iendRecord.set 6 0x31) State.reset with stCur := 8, stEnd := 20, stActive := true })
          (reads · 0x0600 .stCur 8) = true := by decide +kernel

/-- V-S10 and V-K16's SIG_EMIT rows. -/
theorem test_sigEmit :
    nextIs (exec .sigEmit State.reset)
      (fun t => reads t 0x0000 .outPtr 8 && (List.range 8).all (fun k => memLookup t.obuf k == sigBytes[k]?)) = true
      ∧ nextIs (exec .sigEmit { State.reset with cfg := ⟨256, 60⟩, outPtr := 53 }) (reads · 0x1200 .outPtr 53) = true
      ∧ nextIs (exec .sigEmit { State.reset with cfg := ⟨256, 60⟩, outPtr := 52 }) (reads · 0x0000 .outPtr 0x3C) = true := by
  decide +kernel

/-! ### The step, the host and reset -/

/-- The step runs a table word as the first command after reset, and an illegal word reports IllegalCommand (R73). -/
theorem test_step_first_word :
    nextIs (step (State.reset.withFetchWord 32 0x32)) (reads · 0x0000 .outPtr 8) = true
      ∧ nextIs (step (State.reset.withFetchWord 32 0x100)) (reads · 0x1000 .cmd 0x100) = true := by decide +kernel

/-- V-F1: with Complete not yet happened a write faults; V-F2, V-F3, V-F4, V-F5: the other faults. -/
theorem test_host_faults :
    faultIs (perform (.regWrite 32 0x0C 1) (State.reset.issue 1)) .writeWhileBusy = true
      ∧ faultIs (perform (.regWrite 32 0x04 0) State.reset) .writeToReadOnly = true
      ∧ faultIs (perform (.regRead 32 0x44) State.reset) .badRegisterAccess = true
      ∧ faultIs (perform (.regRead 32 0x02) State.reset) .badRegisterAccess = true
      ∧ faultIs (perform (.regRead 32 0x100) State.reset) .badRegisterAccess = true
      ∧ faultIs (perform (.ibufWrite 256 0) State.reset) .bufferAddress = true
      ∧ faultIs (perform (.obufRead 0) State.reset) .unwrittenRead = true
      ∧ faultIs (perform (.ibufRead 0) State.reset) .unwrittenRead = true := by decide +kernel

/-- V-F8: a read while the command is pending gives the value from before it, and STATUS reads 0x0001. -/
theorem test_read_while_busy :
    nextIs (perform (.regRead 32 0x1C) ((load wa 0 54).issue 0x23)) (fun t => t.recorded == [.word 0]) = true
      ∧ nextIs (perform (.regRead 32 0x04) ((load wa 0 54).issue 0x23)) (fun t => t.recorded == [.word 1]) = true := by
  decide +kernel

/-- V-F7: Reset before Complete discards the command. -/
theorem test_reset_discards :
    nextIs (perform .reset ((load digits 0 9).issue 0x02)) (fun t => reads t 0x0000 .crcOut 0 && t.ibuf == []) = true := by
  decide +kernel

/-- R61: while BUSY = 1 a write to an RO register, to a reserved offset, and of 8 bits to CMD. -/
theorem test_write_while_busy :
    faultIs (perform (.regWrite 32 0x04 0) (State.reset.issue 1)) .writeWhileBusy = true
      ∧ faultIs (perform (.regWrite 32 0x44 0) (State.reset.issue 1)) .writeWhileBusy = true
      ∧ faultIs (perform (.regWrite 8 0x00 0) (State.reset.issue 1)) .writeWhileBusy = true := by decide +kernel

/-- R78: the expansions of EXEC, WBUF and RBUF. -/
theorem test_host_expansions :
    hostExec 5 .crcFeed = [.txn (.regWrite 32 0x00 0x00000002), .txn (.regRead 32 0x04), .gotoIf 1 1 6]
      ∧ hostWbuf 8 [0x68, 0x69] = [.txn (.ibufWrite 8 0x68), .txn (.ibufWrite 9 0x69)]
      ∧ hostRbuf 0x40 2 = [.txn (.obufRead 0x40), .txn (.obufRead 0x41)] := by decide

/-! ### Witnesses: for each statement with hypotheses, concrete data that meet them, one conjunct a clause -/

/-- A result that passes `nextIs` is a next state with that property. -/
theorem exists_of_nextIs {r : Result} {p : State → Bool} (h : nextIs r p = true) :
    ∃ t, r = .next t ∧ p t = true := by
  cases r with
  | next t => exact ⟨t, rfl, h⟩
  | fault f => cases h
  | refused q => cases h

/-- A result that passes `faultIs` is that fault. -/
theorem eq_of_faultIs {r : Result} {f : Fault} (h : faultIs r f = true) : r = .fault f := by
  cases r with
  | next t => cases h
  | fault g => rw [eq_of_beq h]
  | refused q => cases h

/-- An open stream over `bs` at 0, with the cursor at `c`, the end at `e` and `n` chunks delivered. -/
def streaming (bs : List Byte) (c e n : Word) : State :=
  { withIbuf 0 bs State.reset with stCur := c, stEnd := e, stCount := n, stActive := true }

theorem streaming_inv (bs : List Byte) (c e n : Word) (hb : bs.length ≤ 256)
    (h : c.toNat ≤ e.toNat ∧ e.toNat ≤ 256 ∧ 8 + 12 * n.toNat ≤ c.toNat) : StateInv (streaming bs c e n) where
  cfg := by show Config.Wf ⟨256, 256⟩; decide
  ibuf := memWriteBytes_bufferOk 0 bs (bufferOk_nil 256) (by show 0 + bs.length ≤ 256; omega)
  obuf := bufferOk_nil 256
  tag h := by cases h
  chType h := by cases h
  chRange h := by cases h
  stream _ := ⟨h.1, h.2.1⟩
  count _ := h.2.2

/-- A run with one line of host program. -/
def hosted (x : Txn) : State := { State.reset with program := [.txn x] }

theorem witness_DecodeEncodeAgree : decode 0x32#32 = .ok .sigEmit ∧ encode .crcInit = 0x01#32 := by decide

theorem witness_EveryWordIsDecided :
    ((0x32#32).extractLsb' 8 24 = 0 ∧
        (0x32#32).extractLsb' 0 8 ∈
          [0x01#8, 0x02#8, 0x10#8, 0x11#8, 0x20#8, 0x21#8, 0x22#8, 0x23#8, 0x30#8, 0x31#8, 0x32#8])
      ∧ ¬ ((0x33#32).extractLsb' 8 24 = 0 ∧
        (0x33#32).extractLsb' 0 8 ∈
          [0x01#8, 0x02#8, 0x10#8, 0x11#8, 0x20#8, 0x21#8, 0x22#8, 0x23#8, 0x30#8, 0x31#8, 0x32#8])
      ∧ ¬ ((0x101#32).extractLsb' 8 24 = 0) ∧ State.reset.busy = false := by decide

theorem witness_StepRunsDecodedCommand :
    (State.reset.withFetchWord 32 0x32).faulted = none ∧ (State.reset.withFetchWord 32 0x32).mover = .engine
      ∧ (State.reset.withFetchWord 32 0x32).pending = some 0x32 ∧ decode 0x32 = .ok .sigEmit := by decide

theorem witness_StepRejectsIllegalWord :
    (State.reset.withFetchWord 32 0x33).faulted = none ∧ (State.reset.withFetchWord 32 0x33).mover = .engine
      ∧ (State.reset.withFetchWord 32 0x33).pending = some 0x33 ∧ decode 0x33 = .error (.reservedOpcode 0x33) := by decide

theorem witness_ModelFaultsArePermanent :
    (let s := (withArgs 0 4 State.reset).withFetchWord 32 0x02
     s.faulted = none ∧ s.mover = .engine ∧ s.pending = some 0x02 ∧ runWord 0x02 s.popTurn = .fault .unwrittenRead)
      ∧ (let s := hosted (.regRead 32 0x44)
         s.faulted = none ∧ s.mover = .host ∧ s.program[s.hostPos]? = some (.txn (.regRead 32 0x44))
           ∧ perform (.regRead 32 0x44) s.popTurn = .fault .badRegisterAccess)
      ∧ (State.reset.markFault .bufferAddress).faulted = some .bufferAddress :=
  ⟨⟨rfl, rfl, rfl, eq_of_faultIs (by decide +kernel)⟩, ⟨rfl, rfl, rfl, eq_of_faultIs (by decide +kernel)⟩, rfl⟩

/-- A turn of each agent, with a command pending and with none; the turns used up, idle and with a command pending. -/
theorem witness_TurnsChooseTheAgent :
    (let s := { State.reset.issue 0x31 with turns := [.host] }
     s.faulted = none ∧ s.turns = .host :: [] ∧ s.pending = some 0x31)
      ∧ (let s := { State.reset.issue 0x31 with turns := [.engine] }
         s.faulted = none ∧ s.turns = .engine :: [] ∧ s.pending = some 0x31)
      ∧ (let s := { State.reset with turns := [.engine] }
         s.faulted = none ∧ s.turns = .engine :: [] ∧ s.pending = none)
      ∧ ((hosted .reset).faulted = none ∧ (hosted .reset).turns = [] ∧ (hosted .reset).pending = none)
      ∧ (State.reset.turns = [] ∧ State.reset.pending = none ∧ State.reset.program[State.reset.hostPos]? = none)
      ∧ ((State.reset.issue 0x31).faulted = none ∧ (State.reset.issue 0x31).turns = []
        ∧ (State.reset.issue 0x31).pending = some 0x31) := by decide

/-- A host at a read of STATUS while a command is pending, at a branch after a word, a byte and no reading, and at its end. -/
theorem witness_HostTurnRunsTheNextLine :
    (let s := { (hosted (.regRead 32 0x04)).issue 0x31 with turns := [.host] }
     s.faulted = none ∧ s.turns = .host :: [] ∧ s.program[s.hostPos]? = some (.txn (.regRead 32 0x04))
       ∧ ∃ t, perform (.regRead 32 0x04) { s with turns := [] } = .next t)
      ∧ (let s := { State.reset with program := [.gotoIf 1 1 7], turns := [.host], recorded := [.word 1] }
         s.faulted = none ∧ s.turns = .host :: [] ∧ s.program[s.hostPos]? = some (.gotoIf 1 1 7)
           ∧ s.recorded = [] ++ [.word 1] ∧ { s with recorded := [.byte 3] }.recorded = [] ++ [.byte 3]
           ∧ { s with recorded := [] }.recorded = [])
      ∧ State.reset.program[State.reset.hostPos]? = none :=
  ⟨⟨rfl, rfl, rfl, ⟨_, rfl⟩⟩, by decide, rfl⟩

/-- A command that waits behind two turns of the host and then a free delay. -/
theorem witness_PendingCommandCompletes :
    ({ State.reset.issue 0x31 with turns := [.host, .host] } : State).faulted = none := by decide

theorem witness_WaitPollsBusy :
    let s := { State.reset with program := hostExec 0 .sigEmit, hostPos := 1, turns := [.host, .host] }
    s.faulted = none ∧ (∀ k, k < 2 → s.program[s.hostPos + k]? = (hostWait s.hostPos)[k]?)
      ∧ s.turns = .host :: .host :: [] ∧ s.pending = none ∧ (s.issue 0x32).pending = some 0x32 := by decide

theorem witness_CmdWriteIssues :
    State.reset.pending = none ∧ (State.reset.issue 0xFFFFFFFF).pending = some 0xFFFFFFFF
      ∧ Txn.regRead 32 0x04 ≠ .reset
      ∧ ∃ t, perform (.regRead 32 0x04) (State.reset.issue 0x31) = .next t := by
  refine ⟨by decide, by decide, by decide, ?_⟩
  obtain ⟨t, h, -⟩ := exists_of_nextIs (r := perform (.regRead 32 0x04) (State.reset.issue 0x31)) (p := fun _ => true)
    (by decide +kernel)
  exact ⟨t, h⟩

theorem witness_RegisterWrites :
    State.reset.pending = none ∧ ((State.reset.issue 1).pending = some 1 ∧ 0x34 ∈ [0x08, 0x0C, 0x10, 0x34])
      ∧ 0x40 ∈ [0x04, 0x14, 0x18, 0x1C, 0x20, 0x24, 0x28, 0x2C, 0x30, 0x38, 0x3C, 0x40]
      ∧ (0x08 ∉ [0x04, 0x14, 0x18, 0x1C, 0x20, 0x24, 0x28, 0x2C, 0x30, 0x38, 0x3C, 0x40]
        ∧ 0x0A ∉ [0x04, 0x14, 0x18, 0x1C, 0x20, 0x24, 0x28, 0x2C, 0x30, 0x38, 0x3C, 0x40]
        ∧ 0x44 ∉ [0x04, 0x14, 0x18, 0x1C, 0x20, 0x24, 0x28, 0x2C, 0x30, 0x38, 0x3C, 0x40]
        ∧ (16 ≠ 32 ∨ 0x08 % 4 ≠ 0 ∨ 0x44 ≤ 0x08) ∧ (32 ≠ 32 ∨ 0x0A % 4 ≠ 0 ∨ 0x44 ≤ 0x0A)
        ∧ (32 ≠ 32 ∨ 0x44 % 4 ≠ 0 ∨ 0x44 ≤ 0x44)) := by decide

theorem witness_EveryWriteWhileBusyFaults : (State.reset.issue 0x31).pending = some 0x31 := by decide

/-- The last hypotheses of RegisterWrites too. -/
theorem witness_WrongWidthWriteToReadOnly :
    State.reset.pending = none ∧ 0x40 ∈ [0x04, 0x14, 0x18, 0x1C, 0x20, 0x24, 0x28, 0x2C, 0x30, 0x38, 0x3C, 0x40]
      ∧ 16 ≠ 32 := by decide

theorem witness_RegisterReads :
    (let s := opened
     (0x00, s.cmd) ∈ [(0x00, s.cmd), (0x04, s.statusWord), (0x08, s.argAddr), (0x0C, s.argLen), (0x10, s.tagIn),
        (0x14, s.tag), (0x18, if s.tagValid then flagsWord s.tag else 0), (0x1C, s.chType),
        (0x20, if s.chValid then flagsWord s.chType else 0), (0x24, s.chPoff), (0x28, s.chLen), (0x2C, s.chCrc),
        (0x30, ~~~ s.crcAcc), (0x34, s.outPtr), (0x38, s.stCur), (0x3C, s.stEnd), (0x40, s.stCount)])
      ∧ (32 ≠ 32 ∨ 0x44 % 4 ≠ 0 ∨ 0x44 ≤ 0x44)
      ∧ (opened.pending = none ∧ Reg.chType ≠ .cmd ∧ Reg.chType ≠ .status
        ∧ ∃ t, perform (.regWrite 32 0x00 0x31) opened = .next t) := by
  refine ⟨by simp, by decide, rfl, by decide, by decide, ?_⟩
  exact ⟨opened.issue 0x31, rfl⟩

theorem witness_IbufWriteSetsOneCell :
    (State.reset.pending = none ∧ 255 < State.reset.cfg.ibufSize) ∧ (State.reset.issue 1).pending = some 1
      ∧ State.reset.cfg.ibufSize ≤ 256
      ∧ ((∀ a b, Txn.regRead 32 0x04 ≠ .ibufWrite a b) ∧ Txn.regRead 32 0x04 ≠ .reset
        ∧ ∃ t, perform (.regRead 32 0x04) State.reset = .next t) :=
  ⟨by decide, by decide, by decide, by simp, by simp, ⟨_, rfl⟩⟩

theorem witness_BufferReads :
    let s := { withIbuf 0 [0x7F] State.reset with obuf := [(255, 0x80)] }
    (0 < s.cfg.ibufSize ∧ memLookup s.ibuf 0 = some 0x7F) ∧ (255 < s.cfg.ibufSize ∧ memLookup s.ibuf 255 = none)
      ∧ s.cfg.ibufSize ≤ 256 ∧ (255 < s.cfg.obufSize ∧ memLookup s.obuf 255 = some 0x80)
      ∧ (0 < s.cfg.obufSize ∧ memLookup s.obuf 0 = none) ∧ s.cfg.obufSize ≤ 256
      ∧ ∃ t, perform (.regWrite 32 0x00 0x31) s = .next t :=
  ⟨by decide, by decide, by decide, by decide, by decide, by decide, ⟨_, rfl⟩⟩

theorem witness_HostTransactionFrame :
    (∃ t, perform (.regRead 32 0x04) opened = .next t) ∧ (∃ t, perform (.ibufWrite 255 0) opened = .next t)
      ∧ Txn.ibufWrite 255 0 ≠ .reset ∧ ∃ t, perform .reset opened = .next t :=
  ⟨⟨opened.record (.word opened.statusWord), rfl⟩, ⟨{ opened with ibuf := memWrite opened.ibuf 255 0 }, rfl⟩, by decide,
    ⟨opened.resetBlock, rfl⟩⟩

theorem witness_CrcInitRule :
    exec .crcInit State.reset = .next (afterSuccess { State.reset with crcAcc := 0xFFFFFFFF#32 }) := rfl

/-- The clauses in their order; the empty range stands at the end of IBUF, the last range is split after 4 of 9 bytes. -/
theorem witness_CrcFeedRule :
    (let s := load digits 0 9
     s.argAddr.toNat + s.argLen.toNat ≤ s.cfg.ibufSize ∧ digits.length = s.argLen.toNat
       ∧ Holds s.ibuf s.argAddr.toNat digits)
      ∧ (let s := load digits 256 0
         s.argAddr.toNat ≤ s.cfg.ibufSize ∧ s.argLen = 0)
      ∧ (let s := load digits 250 7
         s.cfg.ibufSize < s.argAddr.toNat + s.argLen.toNat)
      ∧ (let s := load digits 247 9
         s.argAddr.toNat + s.argLen.toNat ≤ s.cfg.ibufSize ∧ Unwritten s.ibuf s.argAddr.toNat s.argLen.toNat)
      ∧ (load digits 0 9).cfg.Wf ∧ (4#32).toNat ≤ (load digits 0 9).argLen.toNat
      ∧ ∃ t, exec .crcFeed (load digits 0 9) = .next t ∧ t.err = none := by
  refine ⟨by unfold Holds; decide +kernel, by decide +kernel, by decide +kernel, by unfold Unwritten; decide +kernel,
    by decide +kernel, by decide +kernel, ?_⟩
  obtain ⟨t, h, ht⟩ := exists_of_nextIs (r := exec .crcFeed (load digits 0 9)) (p := fun t => t.err == none)
    (by decide +kernel)
  exact ⟨t, h, eq_of_beq ht⟩

theorem witness_CrcOutTracksFedBytes :
    (∃ t, exec .crcInit State.reset = .next t) ∧ (load digits 0 9).regValue .crcOut = crc32 []
      ∧ (∃ t, exec .crcFeed (load digits 0 9) = .next t ∧ t.err = none)
      ∧ ∃ t, perform (.regRead 32 0x30) State.reset = .next t :=
  ⟨⟨_, rfl⟩, by decide +kernel, witness_CrcFeedRule.2.2.2.2.2.2, ⟨_, rfl⟩⟩

theorem witness_CrcAffine : digits.length = (List.replicate 9 0x5A#8).length := by decide

theorem witness_CrcSingleBitSensitivity : digits[8]? = some 0x39#8 ∧ 7 < 8 := by decide

/-- The witness of a command that completes without an error: `chunked` for CHUNK_CRC and CHUNK_SERIALIZE, a record for
CHUNK_PARSE, an open stream for STREAM_NEXT. -/
theorem witness_CrcUnitsIndependent :
    (∃ t, exec .chunkCrc chunked = .next t ∧ t.err = none ∧ t.endFlag = false)
      ∧ (∃ t, exec .chunkSerialize chunked = .next t ∧ t.err = none ∧ t.endFlag = false)
      ∧ (∃ t, exec .chunkParse (load wa 0 54) = .next t ∧ t.err = none ∧ t.endFlag = false)
      ∧ (∃ t, exec .streamNext opened = .next t ∧ t.err = none ∧ t.endFlag = false)
      ∧ (∃ t, exec .crcInit chunked = .next t) ∧ ∃ t, exec .crcFeed (load digits 0 9) = .next t := by
  have run : ∀ (i : Instr) (s : State), nextIs (exec i s) (fun t => t.err == none && !t.endFlag) = true →
      ∃ t, exec i s = .next t ∧ t.err = none ∧ t.endFlag = false := fun i s h => by
    obtain ⟨t, ht, hp⟩ := exists_of_nextIs h
    exact ⟨t, ht, by simpa using hp⟩
  obtain ⟨t, ht, -⟩ := witness_CrcFeedRule.2.2.2.2.2.2
  exact ⟨run _ _ (by decide +kernel), run _ _ (by decide +kernel), run _ _ (by decide +kernel),
    run _ _ (by decide +kernel), ⟨_, rfl⟩, t, ht⟩

theorem witness_TagConstructRule : LetterTag 0x417A5A61#32 ∧ ¬ LetterTag 0x52753174#32 ∧ ¬ LetterTag 0x405A5A5A#32 := by
  decide

theorem witness_TagParseRule :
    (let s := withArgs 253 4 State.reset
     s.cfg.ibufSize < s.argAddr.toNat + s.argLen.toNat)
      ∧ (let s := withArgs 256 0 State.reset
         s.argAddr.toNat + s.argLen.toNat ≤ s.cfg.ibufSize ∧ s.argLen ≠ 4)
      ∧ (let s := withArgs 252 4 (withIbuf 252 [0x52, 0x75, 0x53] State.reset)
         s.argAddr.toNat + 4 ≤ s.cfg.ibufSize ∧ s.argLen = 4 ∧ Unwritten s.ibuf s.argAddr.toNat 4)
      ∧ (let s := withArgs 252 4 (withIbuf 252 [0x52, 0x75, 0x31, 0x74] State.reset)
         s.argAddr.toNat + 4 ≤ s.cfg.ibufSize ∧ s.argLen = 4
           ∧ Holds s.ibuf s.argAddr.toNat (wordBytes 0x52753174) ∧ ¬ LetterTag 0x52753174)
      ∧ (let s := withArgs 252 4 (withIbuf 252 [0x52, 0x75, 0x53, 0x74] State.reset)
         s.argAddr.toNat + 4 ≤ s.cfg.ibufSize ∧ s.argLen = 4
           ∧ Holds s.ibuf s.argAddr.toNat (wordBytes 0x52755374) ∧ LetterTag 0x52755374) := by
  unfold Holds Unwritten; decide +kernel

theorem witness_ChunkSetRule :
    State.reset.tagValid = false
      ∧ ((withArgs 256 1 tagged).tagValid = true
        ∧ (withArgs 256 1 tagged).cfg.ibufSize < (withArgs 256 1 tagged).argAddr.toNat + (withArgs 256 1 tagged).argLen.toNat)
      ∧ ((withArgs 256 0 tagged).tagValid = true
        ∧ (withArgs 256 0 tagged).argAddr.toNat + (withArgs 256 0 tagged).argLen.toNat ≤ (withArgs 256 0 tagged).cfg.ibufSize)
      ∧ (∃ t, exec .tagConstruct tagged = .next t) ∧ ∃ t, exec .tagParse (withArgs 256 1 tagged) = .next t :=
  ⟨rfl, by decide, by decide, ⟨_, rfl⟩, ⟨_, rfl⟩⟩

theorem witness_ChunkCrcRule :
    State.reset.chValid = false
      ∧ (chunked.chValid = true ∧ chunked.chPoff.toNat + chunked.chLen.toNat ≤ chunked.cfg.ibufSize
        ∧ pa.length = chunked.chLen.toNat ∧ Holds chunked.ibuf chunked.chPoff.toNat pa)
      ∧ (let s := { chunked with chPoff := 0xFF, chLen := 1 }
         s.chValid = true ∧ s.chPoff.toNat + s.chLen.toNat ≤ s.cfg.ibufSize
           ∧ Unwritten s.ibuf s.chPoff.toNat s.chLen.toNat) := by
  unfold Holds Unwritten; decide +kernel

/-- OUT_PTR 203 is one too many for 54 bytes in 256, 202 fits exactly. -/
theorem witness_ChunkSerializeRule :
    State.reset.chValid = false
      ∧ (let s := { chunked with outPtr := 203 }
         s.chValid = true ∧ s.cfg.obufSize < s.outPtr.toNat + 12 + s.chLen.toNat)
      ∧ (let s := { chunked with outPtr := 202 }
         s.cfg.Wf ∧ s.chValid = true ∧ s.outPtr.toNat + 12 + s.chLen.toNat ≤ s.cfg.obufSize
           ∧ s.chPoff.toNat + s.chLen.toNat ≤ s.cfg.ibufSize ∧ pa.length = s.chLen.toNat
           ∧ Holds s.ibuf s.chPoff.toNat pa)
      ∧ (let s := { chunked with chPoff := 0xFF, chLen := 1, outPtr := 243 }
         s.chValid = true ∧ s.outPtr.toNat + 12 + s.chLen.toNat ≤ s.cfg.obufSize
           ∧ s.chPoff.toNat + s.chLen.toNat ≤ s.cfg.ibufSize ∧ Unwritten s.ibuf s.chPoff.toNat s.chLen.toNat) := by
  unfold Holds Unwritten; decide +kernel

/-- The ranges of the clauses on the length, on the type, on the CRC, on success, and on unwritten bytes. -/
theorem witness_ChunkParseRule :
    (let s := load wa 203 54
     s.cfg.ibufSize < s.argAddr.toNat + s.argLen.toNat)
      ∧ (let s := load wa 0 3
         s.argAddr.toNat + s.argLen.toNat ≤ s.cfg.ibufSize ∧ s.argLen.toNat < 4)
      ∧ (let s := load wa 0 4
         s.argAddr.toNat + s.argLen.toNat ≤ s.cfg.ibufSize ∧ 4 ≤ s.argLen.toNat
           ∧ Holds s.ibuf s.argAddr.toNat (wordBytes 42) ∧ s.argLen.toNat ≠ (42#32).toNat + 12)
      ∧ (let s := load (wa.set 6 0x31) 0 54
         s.argAddr.toNat + s.argLen.toNat ≤ s.cfg.ibufSize ∧ s.argLen.toNat = (42#32).toNat + 12
           ∧ Holds s.ibuf s.argAddr.toNat (wordBytes 42 ++ wordBytes 0x52753174) ∧ ¬ LetterTag 0x52753174)
      ∧ (let s := load (wa.set 53 0x4F) 0 54
         s.argAddr.toNat + s.argLen.toNat ≤ s.cfg.ibufSize ∧ s.argLen.toNat = (42#32).toNat + 12
           ∧ pa.length = (42#32).toNat ∧ Holds s.ibuf s.argAddr.toNat (recordBytes 42 0x52755374 pa 0xABD1D84F)
           ∧ LetterTag 0x52755374 ∧ 0xABD1D84F ≠ crc32 (wordBytes 0x52755374 ++ pa))
      ∧ (let s := load wa 0 54
         s.argAddr.toNat + s.argLen.toNat ≤ s.cfg.ibufSize ∧ s.argLen.toNat = (42#32).toNat + 12
           ∧ pa.length = (42#32).toNat ∧ Holds s.ibuf s.argAddr.toNat (recordBytes 42 0x52755374 pa 0xABD1D84E)
           ∧ LetterTag 0x52755374 ∧ 0xABD1D84E = crc32 (wordBytes 0x52755374 ++ pa))
      ∧ (let s := load (wa.take 3) 0 4
         s.argAddr.toNat + s.argLen.toNat ≤ s.cfg.ibufSize ∧ 4 ≤ s.argLen.toNat ∧ Unwritten s.ibuf s.argAddr.toNat 4)
      ∧ (let s := load (wa.take 7) 0 54
         s.argAddr.toNat + s.argLen.toNat ≤ s.cfg.ibufSize ∧ s.argLen.toNat = (42#32).toNat + 12
           ∧ Holds s.ibuf s.argAddr.toNat (wordBytes 42) ∧ Unwritten s.ibuf (s.argAddr.toNat + 4) 4)
      ∧ (let s := load (wa.take 53) 0 54
         s.argAddr.toNat + s.argLen.toNat ≤ s.cfg.ibufSize ∧ s.argLen.toNat = (42#32).toNat + 12
           ∧ Holds s.ibuf s.argAddr.toNat (wordBytes 42 ++ wordBytes 0x52755374) ∧ LetterTag 0x52755374
           ∧ Unwritten s.ibuf (s.argAddr.toNat + 8) ((42#32).toNat + 4)) := by
  refine ⟨?_, ?_, ?_, ?_, ?_, ?_, ?_, ?_, ?_⟩ <;> (try unfold Holds) <;> (try unfold Unwritten) <;> decide +kernel

/-- WA parsed at 0. -/
def parsed : State :=
  { load wa 0 54 with chType := 0x52755374, chPoff := 8, chLen := 42, chCrc := 0xABD1D84E, chValid := true }

theorem exec_chunkParse_wa : exec .chunkParse (load wa 0 54) = .next parsed := by
  obtain ⟨t, h, ht⟩ := exists_of_nextIs (r := exec .chunkParse (load wa 0 54)) (p := fun t => t == parsed)
    (by decide +kernel)
  rw [h, eq_of_beq ht]

theorem witness_ChunkRoundTrip :
    (load wa 0 54).cfg.Wf ∧ exec .chunkParse (load wa 0 54) = .next parsed ∧ parsed.err = none
      ∧ parsed.cfg = (load wa 0 54).cfg ∧ parsed.chValid = true ∧ parsed.ibuf = (load wa 0 54).ibuf
      ∧ parsed.outPtr.toNat + (load wa 0 54).argLen.toNat ≤ parsed.cfg.obufSize :=
  ⟨by decide, exec_chunkParse_wa, rfl, rfl, rfl, rfl, by decide⟩

theorem witness_ParseRejectsEverySingleBitFlip :
    exec .chunkParse (load wa 0 54) = .next parsed ∧ parsed.err = none ∧ 53 < (load wa 0 54).argLen.toNat ∧ 7 < 8
      ∧ memLookup (load wa 0 54).ibuf ((load wa 0 54).argAddr.toNat + 53) = some 0x4E :=
  ⟨exec_chunkParse_wa, rfl, by decide, by decide, by decide +kernel⟩

theorem witness_ChunkCrcFollowsIbuf :
    chunked.chValid = true ∧ chunked.chPoff.toNat + chunked.chLen.toNat ≤ chunked.cfg.ibufSize
      ∧ pa.length = chunked.chLen.toNat ∧ Holds chunked.ibuf chunked.chPoff.toNat pa ∧ 41 < pa.length
      ∧ ∃ t, perform (.ibufWrite (chunked.chPoff.toNat + 41) 0x3F) chunked = .next t :=
  ⟨by decide, by decide, by decide, by unfold Holds; decide +kernel, by decide, ⟨_, rfl⟩⟩

theorem witness_StreamOpenRule :
    (let s := load sigBytes 249 8
     s.cfg.ibufSize < s.argAddr.toNat + s.argLen.toNat)
      ∧ (let s := load sigBytes 0 7
         s.argAddr.toNat + s.argLen.toNat ≤ s.cfg.ibufSize ∧ s.argLen.toNat < 8)
      ∧ (let s := load (sigBytes.take 7) 0 8
         s.argAddr.toNat + s.argLen.toNat ≤ s.cfg.ibufSize ∧ 8 ≤ s.argLen.toNat ∧ Unwritten s.ibuf s.argAddr.toNat 8)
      ∧ (let s := load (sigBytes.set 7 0x0b) 0 8
         s.argAddr.toNat + s.argLen.toNat ≤ s.cfg.ibufSize ∧ 8 ≤ s.argLen.toNat ∧ (sigBytes.set 7 0x0b).length = 8
           ∧ Holds s.ibuf s.argAddr.toNat (sigBytes.set 7 0x0b)
           ∧ sigBytes.set 7 0x0b ≠ [0x89#8, 0x50#8, 0x4E#8, 0x47#8, 0x0D#8, 0x0A#8, 0x1A#8, 0x0A#8])
      ∧ (let s := load sigBytes 0 8
         s.argAddr.toNat + s.argLen.toNat ≤ s.cfg.ibufSize ∧ 8 ≤ s.argLen.toNat
           ∧ Holds s.ibuf s.argAddr.toNat [0x89#8, 0x50#8, 0x4E#8, 0x47#8, 0x0D#8, 0x0A#8, 0x1A#8, 0x0A#8]) := by
  unfold Holds Unwritten; decide +kernel

/-- STREAM_NEXT's clauses before the read of LENGTH, and the two on LENGTH. -/
theorem witness_StreamNextRule_length :
    State.reset.stActive = false
      ∧ ((streaming s3 34 34 2).stActive = true ∧ (streaming s3 34 34 2).stCur = (streaming s3 34 34 2).stEnd)
      ∧ (let s := streaming s3 31 34 1
         StateInv s ∧ s.stActive = true ∧ s.stCur ≠ s.stEnd ∧ s.stEnd.toNat < s.stCur.toNat + 4)
      ∧ (let s := streaming s3 8 21 0
         StateInv s ∧ s.stActive = true ∧ s.stCur.toNat + 4 ≤ s.stEnd.toNat
           ∧ Holds s.ibuf s.stCur.toNat (wordBytes 2) ∧ s.stEnd.toNat < s.stCur.toNat + 12 + (2#32).toNat) := by
  refine ⟨rfl, by decide, ⟨streaming_inv _ _ _ _ (by decide) (by decide), by decide⟩,
    ⟨streaming_inv _ _ _ _ (by decide) (by decide), ?_⟩⟩
  unfold Holds; decide +kernel

/-- STREAM_NEXT's clauses on the type, on the CRC and on delivery. -/
theorem witness_StreamNextRule_record :
    (let s := streaming (s3.set 14 0x31) 8 22 0
     StateInv s ∧ s.stActive = true ∧ s.stCur.toNat + 12 + (2#32).toNat ≤ s.stEnd.toNat
       ∧ Holds s.ibuf s.stCur.toNat (wordBytes 2 ++ wordBytes 0x52753174) ∧ ¬ LetterTag 0x52753174)
      ∧ (let s := streaming (s3.set 21 0x72) 8 34 0
         StateInv s ∧ s.stActive = true ∧ s.stCur.toNat + 12 + (2#32).toNat ≤ s.stEnd.toNat
           ∧ [0x68#8, 0x69#8].length = (2#32).toNat
           ∧ Holds s.ibuf s.stCur.toNat (recordBytes 2 0x52755374 [0x68, 0x69] 0xD2BC3F72)
           ∧ LetterTag 0x52755374 ∧ 0xD2BC3F72 ≠ crc32 (wordBytes 0x52755374 ++ [0x68, 0x69]))
      ∧ (let s := streaming s3 8 34 0
         StateInv s ∧ s.stActive = true ∧ s.stCur.toNat + 12 + (2#32).toNat ≤ s.stEnd.toNat
           ∧ [0x68#8, 0x69#8].length = (2#32).toNat
           ∧ Holds s.ibuf s.stCur.toNat (recordBytes 2 0x52755374 [0x68, 0x69] 0xD2BC3F73)
           ∧ LetterTag 0x52755374 ∧ 0xD2BC3F73 = crc32 (wordBytes 0x52755374 ++ [0x68, 0x69])) := by
  refine ⟨⟨streaming_inv _ _ _ _ (by decide) (by decide), ?_⟩, ⟨streaming_inv _ _ _ _ (by decide) (by decide), ?_⟩,
    ⟨streaming_inv _ _ _ _ (by decide) (by decide), ?_⟩⟩ <;> (unfold Holds; decide +kernel)

/-- STREAM_NEXT's clauses on unwritten bytes: the last byte of LENGTH, of TYPE, of the CRC. -/
theorem witness_StreamNextRule_unwritten :
    (let s := streaming (s3.take 11) 8 34 0
     StateInv s ∧ s.stActive = true ∧ s.stCur.toNat + 4 ≤ s.stEnd.toNat ∧ Unwritten s.ibuf s.stCur.toNat 4)
      ∧ (let s := streaming (s3.take 15) 8 34 0
         StateInv s ∧ s.stActive = true ∧ s.stCur.toNat + 12 + (2#32).toNat ≤ s.stEnd.toNat
           ∧ Holds s.ibuf s.stCur.toNat (wordBytes 2) ∧ Unwritten s.ibuf (s.stCur.toNat + 4) 4)
      ∧ (let s := streaming (s3.take 21) 8 34 0
         StateInv s ∧ s.stActive = true ∧ s.stCur.toNat + 12 + (2#32).toNat ≤ s.stEnd.toNat
           ∧ Holds s.ibuf s.stCur.toNat (wordBytes 2 ++ wordBytes 0x52755374) ∧ LetterTag 0x52755374
           ∧ Unwritten s.ibuf (s.stCur.toNat + 8) ((2#32).toNat + 4)) := by
  refine ⟨⟨streaming_inv _ _ _ _ (by decide) (by decide), ?_⟩, ⟨streaming_inv _ _ _ _ (by decide) (by decide), ?_⟩,
    ⟨streaming_inv _ _ _ _ (by decide) (by decide), ?_⟩⟩ <;> (try unfold Holds) <;>
    (unfold Unwritten; decide +kernel)

theorem witness_SigEmitRule :
    (let s := { State.reset with outPtr := 249 }
     s.cfg.obufSize < s.outPtr.toNat + 8)
      ∧ (let s := { State.reset with outPtr := 248 }
         s.cfg.Wf ∧ s.outPtr.toNat + 8 ≤ s.cfg.obufSize) := by decide

/-- S3's first chunk delivered. -/
def delivered : State :=
  { streaming s3 22 34 1 with chType := 0x52755374, chPoff := 16, chLen := 2, chCrc := 0xD2BC3F73, chValid := true }

theorem exec_streamNext_s3 : exec .streamNext (streaming s3 8 34 0) = .next delivered := by
  obtain ⟨t, h, ht⟩ := exists_of_nextIs (r := exec .streamNext (streaming s3 8 34 0)) (p := fun t => t == delivered)
    (by decide +kernel)
  rw [h, eq_of_beq ht]

theorem witness_StreamChunkRoundTrip :
    StateInv (streaming s3 8 34 0) ∧ exec .streamNext (streaming s3 8 34 0) = .next delivered
      ∧ delivered.err = none ∧ delivered.endFlag = false ∧ delivered.cfg = (streaming s3 8 34 0).cfg
      ∧ delivered.chValid = true ∧ delivered.ibuf = (streaming s3 8 34 0).ibuf
      ∧ delivered.outPtr.toNat + (delivered.stCur.toNat - (streaming s3 8 34 0).stCur.toNat) ≤ delivered.cfg.obufSize :=
  ⟨streaming_inv _ _ _ _ (by decide) (by decide), exec_streamNext_s3, rfl, rfl, rfl, rfl, rfl, by decide⟩

theorem load_inv (bs : List Byte) (a n : Word) (hb : bs.length ≤ 256) : StateInv (load bs a n) where
  cfg := by show Config.Wf ⟨256, 256⟩; decide
  ibuf := memWriteBytes_bufferOk 0 bs (bufferOk_nil 256) (by show 0 + bs.length ≤ 256; omega)
  obuf := bufferOk_nil 256
  tag h := by cases h
  chType h := by cases h
  chRange h := by cases h
  stream h := by cases h
  count h := by cases h

/-- 26 bytes are left of S3 after its signature: at most 3 commands. -/
theorem witness_ContainerParseEnds :
    StateInv (streaming s3 8 34 0) ∧ (streaming s3 8 34 0).stActive = true
      ∧ ((streaming s3 8 34 0).stEnd.toNat - (streaming s3 8 34 0).stCur.toNat) / 12 + 1 ≤ 3 :=
  ⟨streaming_inv _ _ _ _ (by decide) (by decide), rfl, by decide⟩

/-- S3 opened, its signature emitted, and its two chunks parsed; 222 is the last OUT_PTR with room for 34 bytes. -/
theorem witness_StreamRoundTrip :
    let s := { load s3 0 34 with outPtr := 222 }
    StateInv s ∧ ∃ t u p, exec .streamOpen s = .next t ∧ t.err = none ∧ exec .sigEmit t = .next u ∧ u.err = none
      ∧ parseStream 3 t = .next p ∧ p.endFlag = true ∧ p.err = none
      ∧ s.outPtr.toNat + s.argLen.toNat ≤ s.cfg.obufSize := by
  intro s
  obtain ⟨t, ht, hp⟩ := exists_of_nextIs (r := exec .streamOpen s)
    (p := fun t => t.err == none && nextIs (exec .sigEmit t) (fun u => u.err == none)
      && nextIs (parseStream 3 t) (fun p => p.endFlag && p.err == none)) (by decide +kernel)
  simp only [Bool.and_eq_true] at hp
  obtain ⟨⟨h1, h2⟩, h3⟩ := hp
  obtain ⟨u, hu, h2⟩ := exists_of_nextIs h2
  obtain ⟨p, hpar, h3⟩ := exists_of_nextIs h3
  have h3 : p.endFlag = true ∧ p.err = none := by simpa using h3
  refine ⟨?_, t, u, p, ht, eq_of_beq h1, hu, eq_of_beq h2, hpar, h3.1, h3.2, by decide⟩
  obtain ⟨h1, h2, h3, h4, h5, h6, h7, h8⟩ := load_inv s3 0 34 (by decide)
  exact ⟨h1, h2, h3, h4, h5, h6, h7, h8⟩

/-- A failed command, and the one failure that changes ST_ACTIVE. -/
theorem witness_FailedCommandCommitsNothing :
    (∃ t, exec .tagConstruct tagged = .next t ∧ t.err = some .invalidByte)
      ∧ ∃ t, exec .streamNext (streaming s3 31 34 1) = .next t ∧ t.err = some .lengthMismatch :=
  ⟨⟨_, rfl, rfl⟩, ⟨_, rfl, rfl⟩⟩

/-- For every command, a state in which it answers a next state: the frames, OutcomesOfEachCommand, EndOnlyAtExhaustion and
the second half of CommandsIgnoreErrEndAndCmd have no other hypothesis. -/
theorem witness_frames :
    (∃ t, exec .crcInit State.reset = .next t) ∧ (∃ t, exec .crcFeed (load digits 0 9) = .next t)
      ∧ (∃ t, exec .tagConstruct tagged = .next t) ∧ (∃ t, exec .tagParse (withArgs 0 3 tagged) = .next t)
      ∧ (∃ t, exec .chunkSet (withArgs 256 0 tagged) = .next t) ∧ (∃ t, exec .chunkCrc chunked = .next t)
      ∧ (∃ t, exec .chunkSerialize chunked = .next t) ∧ (∃ t, exec .chunkParse (load wa 0 54) = .next t)
      ∧ (∃ t, exec .streamOpen (load sigBytes 0 7) = .next t) ∧ (∃ t, exec .streamNext (streaming s3 8 34 0) = .next t)
      ∧ ∃ t, exec .sigEmit State.reset = .next t := by
  obtain ⟨⟨t, ht, -⟩, ⟨u, hu, -⟩, -, -, -, v, hv⟩ := witness_CrcUnitsIndependent
  exact ⟨⟨_, rfl⟩, ⟨v, hv⟩, ⟨_, rfl⟩, ⟨_, rfl⟩, ⟨_, rfl⟩, ⟨t, ht⟩, ⟨u, hu⟩, ⟨_, exec_chunkParse_wa⟩, ⟨_, rfl⟩,
    ⟨_, exec_streamNext_s3⟩, ⟨_, rfl⟩⟩

/-- END after the exhausted stream. -/
theorem witness_EndOnlyAtExhaustion :
    StateInv (streaming s3 34 34 2) ∧ ∃ t, exec .streamNext (streaming s3 34 34 2) = .next t ∧ t.endFlag = true :=
  ⟨streaming_inv _ _ _ _ (by decide) (by decide), ⟨_, rfl, rfl⟩⟩

theorem witness_EngineNeverWritesOperands :
    (State.reset.withFetchWord 32 0x01).mover = .engine ∧ ∃ t, step (State.reset.withFetchWord 32 0x01) = .next t :=
  ⟨rfl, ⟨_, rfl⟩⟩

theorem witness_CommandsCompleteOrReadUnwritten :
    StateInv (streaming (s3.take 21) 8 34 0) ∧ StateInv (streaming s3 8 34 0)
      ∧ Instr.sigEmit ∈ [.crcInit, .tagConstruct, .chunkSet, .sigEmit] :=
  ⟨streaming_inv _ _ _ _ (by decide) (by decide), streaming_inv _ _ _ _ (by decide) (by decide), by decide⟩

/-- A step of the engine and a step of the host from a state with an open stream. -/
theorem witness_StepKeepsInvariant :
    StateInv (streaming s3 34 34 2) ∧ (∃ t, step (streaming s3 34 34 2) = .next t)
      ∧ ∃ t, step ((streaming s3 34 34 2).withFetchWord 32 0x31) = .next t :=
  ⟨streaming_inv _ _ _ _ (by decide) (by decide), ⟨_, rfl⟩, ⟨_, rfl⟩⟩

theorem witness_ResetMeetsInvariant : Config.Wf ⟨12, 8⟩ ∧ Config.Wf ⟨0xFFFFFFFF, 0xFFFFFFFF⟩ := by decide

/-- Two steps of the program EXEC SIG_EMIT: the write of CMD, and the completion. -/
theorem witness_InvariantsOfReachableStates :
    Config.vectors.Wf ∧
      ∃ t, runSteps 2 { State.resetWith Config.vectors with program := hostExec 0 .sigEmit, turns := [.host, .engine],
                                                             draws := 5 } = .next t
        ∧ t.faulted = none :=
  ⟨by decide, ⟨_, rfl, rfl⟩⟩

end Sys2Proof.Tests
end

section
/-!
PROOFS. What a command that reports an error may change (R12, R177).
-/

namespace Sys2Proof.Machine

/-- The ways in which the command `i`, begun in `s`, ends (R11): it commits a state it staged, raises an error on `s`
itself, or meets a model fault. Only a STREAM_NEXT that found its stream open commits with END (R172) or aborts (R177). -/
inductive CommandEnding (s : State) : Instr → Result → Prop
  | commit {i : Instr} (u : State) : CommandEnding s i (commit u)
  | commitAtEnd (u : State) (hopen : s.stActive = true) : CommandEnding s .streamNext (commitAtEnd u)
  | raise {i : Instr} (e : CmdError) : CommandEnding s i (raise e s)
  | abort (e : CmdError) (hopen : s.stActive = true) : CommandEnding s .streamNext (abort e s)
  | fault {i : Instr} (f : Fault) : CommandEnding s i (.fault f)

/-! ### How each command ends -/

theorem execCrcFeed_ending (s : State) : CommandEnding s .crcFeed (execCrcFeed s) := by
  unfold execCrcFeed
  split
  · split
    · exact .fault _
    · exact .commit _
  · exact .raise _

theorem execTagConstruct_ending (s : State) : CommandEnding s .tagConstruct (execTagConstruct s) := by
  unfold execTagConstruct
  split
  · exact .commit _
  · exact .raise _

theorem execTagParse_ending (s : State) : CommandEnding s .tagParse (execTagParse s) := by
  unfold execTagParse
  split
  · exact .raise _
  split
  · exact .raise _
  split
  · exact .fault _
  · split
    · exact .commit _
    · exact .raise _

theorem execChunkSet_ending (s : State) : CommandEnding s .chunkSet (execChunkSet s) := by
  unfold execChunkSet
  split
  · exact .raise _
  split
  · exact .raise _
  · exact .commit _

theorem execChunkCrc_ending (s : State) : CommandEnding s .chunkCrc (execChunkCrc s) := by
  unfold execChunkCrc
  split
  · exact .raise _
  split
  · exact .fault _
  · exact .commit _

theorem execChunkSerialize_ending (s : State) : CommandEnding s .chunkSerialize (execChunkSerialize s) := by
  unfold execChunkSerialize
  split
  · exact .raise _
  split
  · exact .raise _
  split
  · exact .fault _
  · exact .commit _

theorem execChunkParse_ending (s : State) : CommandEnding s .chunkParse (execChunkParse s) := by
  unfold execChunkParse
  split
  · exact .raise _
  split
  · exact .fault _
  · exact .raise _
  · exact .commit _

theorem execStreamOpen_ending (s : State) : CommandEnding s .streamOpen (execStreamOpen s) := by
  unfold execStreamOpen
  split
  · exact .raise _
  split
  · exact .raise _
  split
  · exact .fault _
  · split
    · exact .raise _
    · exact .commit _

/-- Only the check that finds the stream not open raises; every error after it aborts the stream (R177). -/
theorem execStreamNext_ending (s : State) : CommandEnding s .streamNext (execStreamNext s) := by
  unfold execStreamNext
  split
  · exact .raise _
  next hclosed =>
    have hopen : s.stActive = true := by simpa using hclosed
    split
    · exact .commitAtEnd _ hopen
    split
    · exact .abort _ hopen
    split
    · exact .fault _
    split
    · exact .abort _ hopen
    split
    · exact .fault _
    · exact .abort _ hopen
    · exact .commit _

theorem execSigEmit_ending (s : State) : CommandEnding s .sigEmit (execSigEmit s) := by
  unfold execSigEmit
  split
  · exact .commit _
  · exact .raise _

theorem exec_ending (i : Instr) (s : State) : CommandEnding s i (exec i s) := by
  cases i with
  | crcInit => exact .commit _
  | crcFeed => exact execCrcFeed_ending s
  | tagConstruct => exact execTagConstruct_ending s
  | tagParse => exact execTagParse_ending s
  | chunkSet => exact execChunkSet_ending s
  | chunkCrc => exact execChunkCrc_ending s
  | chunkSerialize => exact execChunkSerialize_ending s
  | chunkParse => exact execChunkParse_ending s
  | streamOpen => exact execStreamOpen_ending s
  | streamNext => exact execStreamNext_ending s
  | sigEmit => exact execSigEmit_ending s

/-! ### What an error leaves -/

/-- A commit reports no error, so an error state comes from `raise`, or from the `abort` of an open stream. -/
theorem CommandEnding.error_cases {i : Instr} {s t : State} {r : Result} {e : CmdError} (h : CommandEnding s i r)
    (hr : r = .next t) (he : t.err = some e) :
    t = afterError e s ∨ (i = .streamNext ∧ s.stActive = true ∧ t = afterError e { s with stActive := false }) := by
  cases h with
  | commit u =>
    obtain rfl := commit_next_iff.mp hr
    simp at he
  | commitAtEnd u hopen =>
    obtain rfl := commitAtEnd_next_iff.mp hr
    simp at he
  | raise e' =>
    obtain rfl := raise_next_iff.mp hr
    obtain rfl : e' = e := by simpa using he
    exact .inl rfl
  | abort e' hopen =>
    obtain rfl := abort_next_iff.mp hr
    obtain rfl : e' = e := by simpa using he
    exact .inr ⟨rfl, hopen, rfl⟩
  | fault f => cases hr

/-- Settles O44, by the ways in which a command can end. -/
theorem failedCommandCommitsNothing : Obligations.FailedCommandCommitsNothing := by
  unfold Obligations.FailedCommandCommitsNothing
  intro i s t e hexec he
  obtain rfl | ⟨hi, hopen, rfl⟩ := (exec_ending i s).error_cases hexec he
  · exact ⟨rfl, .inl rfl⟩
  · exact ⟨rfl, .inr ⟨hi, hopen, rfl⟩⟩

end Sys2Proof.Machine
end

section
/-!
PROOFS. What a command that succeeds has done: the checks it passed, what it read, and the state it leaves.
-/

namespace Sys2Proof.Machine

/-- The ways in which the command `i`, begun in `s`, completes in `t` without an error, one constructor a command: what its
checks and its reads found is in the hypotheses, and what it wrote is in the state. STREAM_NEXT has two: a delivered chunk,
and the end of the stream. -/
inductive CommandSuccess (s : State) : Instr → State → Prop
  | crcInit : CommandSuccess s .crcInit (afterSuccess { s with crcAcc := crcInitial })
  | crcFeed (bs : List Byte) (hin : s.argInRange) (hread : s.memRead s.argStart s.argCount = .ok bs) :
    CommandSuccess s .crcFeed (afterSuccess { s with crcAcc := crcFold s.crcAcc bs })
  | tagConstruct (hletters : letters4 s.tagInBytes = true) :
    CommandSuccess s .tagConstruct (afterSuccess { s with tag := s.tagIn, tagValid := true })
  | tagParse (q : Quad) (hin : s.argInRange) (hcount : s.argCount = 4) (hread : s.memRead4 s.argStart = .ok q)
      (hletters : letters4 q = true) :
    CommandSuccess s .tagParse (afterSuccess { s with tag := be32 q, tagValid := true })
  | chunkSet (htag : s.tagValid = true) (hin : s.argInRange) :
    CommandSuccess s .chunkSet
      (afterSuccess { s with chType := s.tag, chPoff := s.argAddr, chLen := s.argLen, chValid := true })
  | chunkCrc (p : List Byte) (hchunk : s.chValid = true) (hread : s.readPayload = .ok p) :
    CommandSuccess s .chunkCrc (afterSuccess { s with chCrc := chunkCrc s.chunkType p })
  | chunkSerialize (p : List Byte) (hchunk : s.chValid = true) (hfit : s.outFits (12 + s.chLen.toNat))
      (hread : s.readPayload = .ok p) :
    CommandSuccess s .chunkSerialize
      (afterSuccess { s.emit (chunkBytes s.chLen s.chunkType p (chunkCrc s.chunkType p)) with
        chCrc := chunkCrc s.chunkType p })
  | chunkParse (r : ChunkRecord) (hin : s.argInRange) (hparse : s.parseChunk s.argStart s.argCount = .ok r) :
    CommandSuccess s .chunkParse (afterSuccess (s.setChunk r))
  | streamOpen (hin : s.argInRange) (hcount : 8 ≤ s.argCount) (hread : s.memRead s.argStart 8 = .ok signature) :
    CommandSuccess s .streamOpen
      (afterSuccess { s with
        stCur := BitVec.ofNat 32 (s.argStart + 8), stEnd := BitVec.ofNat 32 (s.argStart + s.argCount),
        stCount := 0, stActive := true })
  | streamNext (q : Quad) (r : ChunkRecord) (hopen : s.stActive = true) (hread : s.memRead4 s.stCur.toNat = .ok q)
      (hfit : 12 + (be32 q).toNat ≤ s.streamRest)
      (hparse : s.parseChunk s.stCur.toNat (12 + (be32 q).toNat) = .ok r) :
    CommandSuccess s .streamNext (afterSuccess ((s.setChunk r).advanceStream (be32 q).toNat))
  | streamEnd (hopen : s.stActive = true) (hrest : s.streamRest = 0) :
    CommandSuccess s .streamNext { afterSuccess { s with stActive := false } with endFlag := true }
  | sigEmit (hfit : s.outFits 8) : CommandSuccess s .sigEmit (afterSuccess (s.emit signature))

/-! ### An error is no success -/

theorem raise_err_ne_none {e : CmdError} {s t : State} (h : raise e s = .next t) : t.err ≠ none := by
  obtain rfl := raise_next_iff.mp h
  simp

theorem abort_err_ne_none {e : CmdError} {s t : State} (h : abort e s = .next t) : t.err ≠ none :=
  raise_err_ne_none h

/-! ### How each command succeeds -/

section
variable {s t : State}

theorem execCrcFeed_success (h : execCrcFeed s = .next t) (he : t.err = none) : CommandSuccess s .crcFeed t := by
  unfold execCrcFeed at h
  split at h
  · split at h
    · cases h
    · exact commit_next_iff.mp h ▸ .crcFeed _ ‹_› ‹_›
  · exact absurd he (raise_err_ne_none h)

theorem execTagConstruct_success (h : execTagConstruct s = .next t) (he : t.err = none) :
    CommandSuccess s .tagConstruct t := by
  unfold execTagConstruct at h
  split at h
  · exact commit_next_iff.mp h ▸ .tagConstruct ‹_›
  · exact absurd he (raise_err_ne_none h)

theorem execTagParse_success (h : execTagParse s = .next t) (he : t.err = none) : CommandSuccess s .tagParse t := by
  unfold execTagParse at h
  split at h
  · exact absurd he (raise_err_ne_none h)
  next hin =>
    split at h
    · exact absurd he (raise_err_ne_none h)
    next hcount =>
      split at h
      · cases h
      · split at h
        · exact commit_next_iff.mp h ▸ .tagParse _ (not_not.mp hin) (not_not.mp hcount) ‹_› ‹_›
        · exact absurd he (raise_err_ne_none h)

theorem execChunkSet_success (h : execChunkSet s = .next t) (he : t.err = none) : CommandSuccess s .chunkSet t := by
  unfold execChunkSet at h
  split at h
  · exact absurd he (raise_err_ne_none h)
  next htag =>
    split at h
    · exact absurd he (raise_err_ne_none h)
    next hin => exact commit_next_iff.mp h ▸ .chunkSet (Bool.eq_true_of_not_eq_false htag) (not_not.mp hin)

theorem execChunkCrc_success (h : execChunkCrc s = .next t) (he : t.err = none) : CommandSuccess s .chunkCrc t := by
  unfold execChunkCrc at h
  split at h
  · exact absurd he (raise_err_ne_none h)
  next hchunk =>
    split at h
    · cases h
    · exact commit_next_iff.mp h ▸ .chunkCrc _ (Bool.eq_true_of_not_eq_false hchunk) ‹_›

theorem execChunkSerialize_success (h : execChunkSerialize s = .next t) (he : t.err = none) :
    CommandSuccess s .chunkSerialize t := by
  unfold execChunkSerialize at h
  split at h
  · exact absurd he (raise_err_ne_none h)
  next hchunk =>
    split at h
    · exact absurd he (raise_err_ne_none h)
    next hfit =>
      split at h
      · cases h
      · exact commit_next_iff.mp h ▸
          .chunkSerialize _ (Bool.eq_true_of_not_eq_false hchunk) (not_not.mp hfit) ‹_›

theorem execChunkParse_success (h : execChunkParse s = .next t) (he : t.err = none) :
    CommandSuccess s .chunkParse t := by
  unfold execChunkParse at h
  split at h
  · exact absurd he (raise_err_ne_none h)
  next hin =>
    split at h
    · cases h
    · exact absurd he (raise_err_ne_none h)
    · exact commit_next_iff.mp h ▸ .chunkParse _ (not_not.mp hin) ‹_›

theorem execStreamOpen_success (h : execStreamOpen s = .next t) (he : t.err = none) :
    CommandSuccess s .streamOpen t := by
  unfold execStreamOpen at h
  split at h
  · exact absurd he (raise_err_ne_none h)
  next hin =>
    split at h
    · exact absurd he (raise_err_ne_none h)
    next hcount =>
      split at h
      · cases h
      next bs hread =>
        split at h
        · exact absurd he (raise_err_ne_none h)
        next hsig =>
          obtain rfl : bs = signature := not_not.mp hsig
          exact commit_next_iff.mp h ▸ .streamOpen (not_not.mp hin) (Nat.le_of_not_lt hcount) hread

theorem execStreamNext_success (h : execStreamNext s = .next t) (he : t.err = none) :
    CommandSuccess s .streamNext t := by
  unfold execStreamNext at h
  split at h
  · exact absurd he (raise_err_ne_none h)
  next hclosed =>
    have hopen : s.stActive = true := Bool.eq_true_of_not_eq_false hclosed
    split at h
    · exact commitAtEnd_next_iff.mp h ▸ .streamEnd hopen ‹_›
    split at h
    · exact absurd he (abort_err_ne_none h)
    split at h
    · cases h
    split at h
    · exact absurd he (abort_err_ne_none h)
    next hfit =>
      split at h
      · cases h
      · exact absurd he (abort_err_ne_none h)
      · exact commit_next_iff.mp h ▸ .streamNext _ _ hopen ‹_› (Nat.le_of_not_lt hfit) ‹_›

theorem execSigEmit_success (h : execSigEmit s = .next t) (he : t.err = none) : CommandSuccess s .sigEmit t := by
  unfold execSigEmit at h
  split at h
  · exact commit_next_iff.mp h ▸ .sigEmit ‹_›
  · exact absurd he (raise_err_ne_none h)

theorem exec_success {i : Instr} (h : exec i s = .next t) (he : t.err = none) : CommandSuccess s i t := by
  cases i with
  | crcInit => exact commit_next_iff.mp h ▸ .crcInit
  | crcFeed => exact execCrcFeed_success h he
  | tagConstruct => exact execTagConstruct_success h he
  | tagParse => exact execTagParse_success h he
  | chunkSet => exact execChunkSet_success h he
  | chunkCrc => exact execChunkCrc_success h he
  | chunkSerialize => exact execChunkSerialize_success h he
  | chunkParse => exact execChunkParse_success h he
  | streamOpen => exact execStreamOpen_success h he
  | streamNext => exact execStreamNext_success h he
  | sigEmit => exact execSigEmit_success h he

/-- A command that answers a next state succeeds, or it reports an error and changes nothing but STATUS, where a
STREAM_NEXT that found its stream open also closes it. -/
theorem exec_next_cases {i : Instr} (h : exec i s = .next t) :
    CommandSuccess s i t ∨ (∃ e, t = afterError e s) ∨
      ∃ e, i = .streamNext ∧ s.stActive = true ∧ t = afterError e { s with stActive := false } := by
  cases he : t.err with
  | none => exact .inl (exec_success h he)
  | some e => exact .inr (((exec_ending i s).error_cases h he).imp (⟨e, ·⟩) (⟨e, ·⟩))

end

end Sys2Proof.Machine
end

section
/-!
PROOFS. The invariants of R40: what each way of changing the state asks to keep them, every command, every completion, every
move of the host and so every step.
-/

namespace Sys2Proof.Machine

/-! ### What keeps the invariants -/

section
variable {s t : State}

/-- The state after reset meets the invariants, for any sizes of R6: nothing is valid, open or written. -/
theorem StateInv.resetWith {c : Config} (h : c.Wf) : StateInv (State.resetWith c) where
  cfg := h
  ibuf := bufferOk_nil _
  obuf := bufferOk_nil _
  tag h := nomatch h
  chType h := nomatch h
  chRange h := nomatch h
  stream h := nomatch h
  count h := nomatch h

/-- The schedule is not in the invariants. -/
theorem StateInv.popTurn (h : StateInv s) : StateInv s.popTurn := by
  rw [State.popTurn_eq]
  exact { h with }

/-- The end of a command writes STATUS only. -/
theorem StateInv.afterSuccess (h : StateInv s) : StateInv (afterSuccess s) := { h with }

theorem StateInv.afterError (h : StateInv s) (e : CmdError) : StateInv (afterError e s) := { h with }

theorem StateInv.closeStream (h : StateInv s) : StateInv { s with stActive := false } :=
  { h with stream := nofun, count := nofun }

theorem StateInv.setTag (h : StateInv s) {v : Word} (hv : LetterTag v) :
    StateInv { s with tag := v, tagValid := true } :=
  { h with tag := fun _ => hv }

/-- A descriptor of letters whose payload lies in IBUF (R40 item 2). -/
theorem StateInv.setChunk (h : StateInv s) {r : ChunkRecord} (htype : LetterTag r.chType)
    (hrange : r.chPoff.toNat + r.chLen.toNat ≤ s.cfg.ibufSize) : StateInv (s.setChunk r) :=
  { h with chType := fun _ => htype, chRange := fun _ => hrange }

/-- Output that fits from OUT_PTR stays inside OBUF (R59). -/
theorem StateInv.emit (h : StateInv s) {bs : List Byte} (hfit : s.outFits bs.length) : StateInv (s.emit bs) :=
  { h with obuf := memWriteBytes_bufferOk _ bs h.obuf hfit }

/-! ### Register values inside IBUF do not wrap -/

/-- An offset inside IBUF is a register value (R6, R10). -/
theorem toNat_ofNat_of_inside (hc : s.cfg.Wf) {n : Nat} (hn : n ≤ s.cfg.ibufSize) : (BitVec.ofNat 32 n).toNat = n := by
  obtain ⟨-, hmax, -, -⟩ := hc
  rw [BitVec.toNat_ofNat, Nat.mod_eq_of_lt (by omega)]

/-- A record parsed inside IBUF has a letter type and its payload inside the range, so it may become the descriptor. -/
theorem StateInv.setChunk_of_parse (h : StateInv s) {a n : Nat} {r : ChunkRecord} (hin : a + n ≤ s.cfg.ibufSize)
    (hparse : s.parseChunk a n = .ok r) : StateInv (s.setChunk r) := by
  obtain ⟨l, ty, w, p, hn, -, -, hletters, -, rfl⟩ := (parseChunk_ok_iff hin).mp hparse
  refine h.setChunk hletters ?_
  simp only [toNat_ofNat_of_inside h.cfg (show a + 8 ≤ s.cfg.ibufSize by omega)]
  omega

/-- A stream opened on `n` bytes inside IBUF starts after its signature, inside its bounds, with nothing delivered (R171). -/
theorem StateInv.openStream (h : StateInv s) {a n : Nat} (hn : 8 ≤ n) (hin : a + n ≤ s.cfg.ibufSize) :
    StateInv { s with
      stCur := BitVec.ofNat 32 (a + 8), stEnd := BitVec.ofNat 32 (a + n), stCount := 0, stActive := true } := by
  have hstart : (BitVec.ofNat 32 (a + 8)).toNat = a + 8 := toNat_ofNat_of_inside h.cfg (by omega)
  have hend : (BitVec.ofNat 32 (a + n)).toNat = a + n := toNat_ofNat_of_inside h.cfg hin
  refine { h with stream := fun _ => ?_, count := fun _ => ?_ }
  · simp only [hstart, hend]
    omega
  · simp [hstart]

/-- A cursor that moves 12 bytes or more and not past the end of the stream keeps the stream's bounds (R40 item 3, R172). -/
theorem StateInv.advanceStream (h : StateInv s) {l : Nat} (hopen : s.stActive = true) (hfit : 12 + l ≤ s.streamRest) :
    StateInv (s.advanceStream l) := by
  obtain ⟨hcur, hend⟩ := h.stream hopen
  have hcount := h.count hopen
  unfold State.streamRest at hfit
  have hnew : (s.advanceStream l).stCur.toNat = s.stCur.toNat + 12 + l := toNat_ofNat_of_inside h.cfg (by omega)
  have hone : (s.advanceStream l).stCount.toNat ≤ s.stCount.toNat + 1 := by
    rw [State.advanceStream_stCount, BitVec.toNat_add]
    exact Nat.mod_le _ _
  refine { h with stream := fun _ => ⟨?_, hend⟩, count := fun _ => ?_ }
  · rw [hnew, State.advanceStream_stEnd]
    omega
  · omega

/-! ### Commands and completions -/

/-- A successful command keeps the invariants: what it writes passed the check that R40 asks. -/
theorem CommandSuccess.stateInv {i : Instr} (hs : CommandSuccess s i t) (h : StateInv s) : StateInv t := by
  cases hs with
  | crcInit => exact { h with }
  | crcFeed bs hin hread => exact { h with }
  | tagConstruct hletters => exact (h.setTag ((letters4_bytesBe32 _).mp hletters)).afterSuccess
  | tagParse q hin hcount hread hletters => exact (h.setTag ((letters4_iff q).mp hletters)).afterSuccess
  | chunkSet htag hin => exact { h with chType := fun _ => h.tag htag, chRange := fun _ => hin }
  | chunkCrc p hchunk hread => exact { h with }
  | chunkSerialize p hchunk hfit hread =>
    have hlen : p.length = s.chLen.toNat := (memRead_ok_iff.mp hread).1
    have hbytes : s.outFits (chunkBytes s.chLen s.chunkType p (Machine.chunkCrc s.chunkType p)).length := by
      rwa [chunkBytes_length, hlen]
    exact { h.emit hbytes with }
  | chunkParse r hin hparse => exact (h.setChunk_of_parse hin hparse).afterSuccess
  | streamOpen hin hcount hread => exact (h.openStream hcount hin).afterSuccess
  | streamNext q r hopen hread hfit hparse =>
    obtain ⟨hcur, hend⟩ := h.stream hopen
    have hin : s.stCur.toNat + (12 + (be32 q).toNat) ≤ s.cfg.ibufSize := by
      unfold State.streamRest at hfit
      omega
    exact ((h.setChunk_of_parse hin hparse).advanceStream hopen hfit).afterSuccess
  | streamEnd hopen hrest => exact { h.closeStream with }
  | sigEmit hfit => exact (h.emit (bs := signature) hfit).afterSuccess

theorem exec_keeps_stateInv {i : Instr} (h : StateInv s) (hexec : exec i s = .next t) : StateInv t := by
  obtain hs | ⟨e, rfl⟩ | ⟨e, -, -, rfl⟩ := exec_next_cases hexec
  · exact hs.stateInv h
  · exact h.afterError e
  · exact h.closeStream.afterError e

theorem complete_keeps_stateInv (h : StateInv s) (hcomplete : complete s = .next t) : StateInv t := by
  obtain ⟨-, rfl⟩ | ⟨w, -, hrun | ⟨f, -, rfl⟩⟩ := complete_next_cases hcomplete
  · exact h
  · obtain ⟨d, -, rfl⟩ | ⟨i, -, hexec⟩ := runWord_next_cases hrun
    · exact h.afterError _
    · exact exec_keeps_stateInv h hexec
  · exact { h with }

/-! ### The host -/

/-- The host writes operands, STATUS by issuing, its own record, one cell of IBUF, or everything by a reset. -/
theorem perform_keeps_stateInv {x : Txn} (h : StateInv s) (hperform : perform x s = .next t) : StateInv t := by
  obtain ⟨-, w, rfl⟩ | ⟨-, v, rfl⟩ | ⟨-, v, rfl⟩ | ⟨-, v, rfl⟩ | ⟨-, v, rfl⟩ | ⟨-, a, b, ha, rfl⟩ | ⟨r, rfl⟩ | ⟨-, rfl⟩ :=
    perform_next_cases hperform
  · exact { h with }
  · exact { h with }
  · exact { h with }
  · exact { h with }
  · exact { h with }
  · exact { h with ibuf := memWrite_bufferOk a b h.ibuf ha }
  · exact { h with }
  · exact { StateInv.resetWith h.cfg with }

theorem hostMove_keeps_stateInv (h : StateInv s) (hmove : hostMove s = .next t) : StateInv t := by
  obtain rfl | ⟨p, rfl⟩ | ⟨x, -, ⟨u, hperform, rfl⟩ | ⟨f, -, rfl⟩⟩ := hostMove_next_cases hmove
  · exact h
  · exact { h with }
  · exact { perform_keeps_stateInv h hperform with }
  · exact { h with }

/-! ### The step -/

theorem step_keeps_stateInv (h : StateInv s) (hstep : step s = .next t) : StateInv t := by
  obtain ⟨-, ⟨-, hcomplete⟩ | ⟨-, hmove⟩⟩ := step_next_cases hstep
  · exact complete_keeps_stateInv h.popTurn hcomplete
  · exact hostMove_keeps_stateInv h.popTurn hmove

end

/-- Settles O55, by what a completion (a success, an error or a fault) and what a move of the host can do. -/
theorem stepKeepsInvariant : Obligations.StepKeepsInvariant := by
  unfold Obligations.StepKeepsInvariant
  exact fun s t => step_keeps_stateInv

end Sys2Proof.Machine
end

section
/-!
PROOFS. What the engine never writes (R23, R24, R37), that a command reads neither ERR nor END nor CMD (R22, R223), and when
END is 1 (R22, R172).
-/

namespace Sys2Proof.Machine

/-! ### What the engine keeps -/

/-- What a completion never writes: the sizes, CMD and the operands, IBUF, and what belongs to the host. -/
structure EngineKeeps (s t : State) : Prop where
  cfg : t.cfg = s.cfg
  cmd : t.cmd = s.cmd
  argAddr : t.argAddr = s.argAddr
  argLen : t.argLen = s.argLen
  tagIn : t.tagIn = s.tagIn
  ibuf : t.ibuf = s.ibuf
  program : t.program = s.program
  hostPos : t.hostPos = s.hostPos
  recorded : t.recorded = s.recorded

section
variable {s t : State}

theorem EngineKeeps.refl (s : State) : EngineKeeps s s := ⟨rfl, rfl, rfl, rfl, rfl, rfl, rfl, rfl, rfl⟩

theorem CommandSuccess.engineKeeps {i : Instr} (h : CommandSuccess s i t) : EngineKeeps s t := by
  cases h <;> exact { EngineKeeps.refl s with }

theorem exec_engineKeeps {i : Instr} (h : exec i s = .next t) : EngineKeeps s t := by
  obtain hs | ⟨e, rfl⟩ | ⟨e, -, -, rfl⟩ := exec_next_cases h
  · exact hs.engineKeeps
  · exact { EngineKeeps.refl s with }
  · exact { EngineKeeps.refl s with }

theorem complete_engineKeeps (h : complete s = .next t) : EngineKeeps s t := by
  obtain ⟨-, rfl⟩ | ⟨w, -, hrun | ⟨f, -, rfl⟩⟩ := complete_next_cases h
  · exact .refl t
  · obtain ⟨d, -, rfl⟩ | ⟨i, -, hexec⟩ := runWord_next_cases hrun
    · exact { EngineKeeps.refl s with }
    · exact exec_engineKeeps hexec
  · exact { EngineKeeps.refl s with }

theorem perform_cfg {x : Txn} (h : perform x s = .next t) : t.cfg = s.cfg := by
  obtain ⟨-, w, rfl⟩ | ⟨-, v, rfl⟩ | ⟨-, v, rfl⟩ | ⟨-, v, rfl⟩ | ⟨-, v, rfl⟩ | ⟨-, a, b, -, rfl⟩ | ⟨r, rfl⟩ | ⟨-, rfl⟩ :=
    perform_next_cases h
  all_goals rfl

theorem hostMove_cfg (h : hostMove s = .next t) : t.cfg = s.cfg := by
  obtain rfl | ⟨p, rfl⟩ | ⟨x, -, ⟨u, hperform, rfl⟩ | ⟨f, -, rfl⟩⟩ := hostMove_next_cases h
  · rfl
  · rfl
  · exact (u.nextLine_cfg).trans (perform_cfg hperform)
  · rfl

end

/-- Settles O50: a completion keeps what the engine never writes, using up a turn does too, and the host keeps the sizes. -/
theorem engineNeverWritesOperands : Obligations.EngineNeverWritesOperands := by
  unfold Obligations.EngineNeverWritesOperands
  refine ⟨fun s t hstep => ?_, fun s t hstep hmover => ?_⟩
  · obtain ⟨-, ⟨-, hcomplete⟩ | ⟨-, hmove⟩⟩ := step_next_cases hstep
    · exact (complete_engineKeeps hcomplete).cfg.trans s.popTurn_cfg
    · exact (hostMove_cfg hmove).trans s.popTurn_cfg
  · obtain ⟨hfaulted, -⟩ := step_next_cases hstep
    rw [step_of_engine hfaulted hmover] at hstep
    obtain ⟨-, hcmd, haddr, hlen, htag, hibuf, hprogram, hpos, hrecorded⟩ := complete_engineKeeps hstep
    simp [hcmd, haddr, hlen, htag, hibuf, hprogram, hpos, hrecorded]

/-! ### CMD is carried through -/

/-- `s` with the value `w` in CMD. -/
def State.setCmd (s : State) (w : Word) : State := { s with cmd := w }

/-- An answer with `w` in CMD of the next state, if there is one. -/
def Result.setCmd (w : Word) : Result → Result
  | .next t => .next (t.setCmd w)
  | .fault f => .fault f
  | .refused r => .refused r

section
variable (s : State) (w : Word)

/-! No check and no read of a command looks at CMD. -/

@[simp] theorem State.setCmd_memRead (a n : Nat) : (s.setCmd w).memRead a n = s.memRead a n := rfl
@[simp] theorem State.setCmd_memRead4 (a : Nat) : (s.setCmd w).memRead4 a = s.memRead4 a := rfl
@[simp] theorem State.setCmd_parseChunk (a n : Nat) : (s.setCmd w).parseChunk a n = s.parseChunk a n := rfl
@[simp] theorem State.setCmd_readPayload : (s.setCmd w).readPayload = s.readPayload := rfl
@[simp] theorem State.setCmd_argStart : (s.setCmd w).argStart = s.argStart := rfl
@[simp] theorem State.setCmd_argCount : (s.setCmd w).argCount = s.argCount := rfl
@[simp] theorem State.setCmd_tagInBytes : (s.setCmd w).tagInBytes = s.tagInBytes := rfl
@[simp] theorem State.setCmd_streamRest : (s.setCmd w).streamRest = s.streamRest := rfl
@[simp] theorem State.setCmd_cfg : (s.setCmd w).cfg = s.cfg := rfl
@[simp] theorem State.setCmd_tagValid : (s.setCmd w).tagValid = s.tagValid := rfl
@[simp] theorem State.setCmd_chValid : (s.setCmd w).chValid = s.chValid := rfl
@[simp] theorem State.setCmd_chLen : (s.setCmd w).chLen = s.chLen := rfl
@[simp] theorem State.setCmd_outPtr : (s.setCmd w).outPtr = s.outPtr := rfl
@[simp] theorem State.setCmd_stCur : (s.setCmd w).stCur = s.stCur := rfl
@[simp] theorem State.setCmd_stActive : (s.setCmd w).stActive = s.stActive := rfl

/-- A command answers the same whatever CMD holds, but for that value itself: along the branches of its definition, each
branch is taken again and ends in the same writes. -/
theorem exec_setCmd (i : Instr) : exec i (s.setCmd w) = Result.setCmd w (exec i s) := by
  cases i with
  | crcInit => rfl
  | crcFeed => fun_cases execCrcFeed s <;> simp [exec, execCrcFeed, *] <;> rfl
  | tagConstruct => fun_cases execTagConstruct s <;> simp [exec, execTagConstruct, *] <;> rfl
  | tagParse => fun_cases execTagParse s <;> simp [exec, execTagParse, *] <;> rfl
  | chunkSet => fun_cases execChunkSet s <;> simp [exec, execChunkSet, *] <;> rfl
  | chunkCrc => fun_cases execChunkCrc s <;> simp [exec, execChunkCrc, *] <;> rfl
  | chunkSerialize => fun_cases execChunkSerialize s <;> simp [exec, execChunkSerialize, *] <;> rfl
  | chunkParse => fun_cases execChunkParse s <;> simp [exec, execChunkParse, *] <;> rfl
  | streamOpen => fun_cases execStreamOpen s <;> simp [exec, execStreamOpen, *] <;> rfl
  | streamNext => fun_cases execStreamNext s <;> simp [exec, execStreamNext, *] <;> rfl
  | sigEmit => fun_cases execSigEmit s <;> simp [exec, execSigEmit, *] <;> rfl

end

/-- Settles O52. Every end of a command overwrites ERR and END, and nothing before it reads them; CMD is carried through. -/
theorem commandsIgnoreErrEndAndCmd : Obligations.CommandsIgnoreErrEndAndCmd := by
  unfold Obligations.CommandsIgnoreErrEndAndCmd
  refine fun i s e b w => ⟨?_, fun t hexec => ?_⟩
  · cases i <;> rfl
  · exact (exec_setCmd s w i).trans (congrArg (Result.setCmd w) hexec)

/-! ### END -/

section
variable {i : Instr} {s t : State}

theorem streamRest_eq_zero_iff : s.streamRest = 0 ↔ s.stEnd.toNat ≤ s.stCur.toNat := Nat.sub_eq_zero_iff_le

/-- A STREAM_NEXT that finds its open stream exhausted ends with END 1 and the stream closed (R172). -/
theorem exec_streamNext_exhausted (hopen : s.stActive = true) (hrest : s.streamRest = 0) :
    exec .streamNext s = .next { afterSuccess { s with stActive := false } with endFlag := true } := by
  simp [exec, execStreamNext, hopen, hrest, commitAtEnd_eq]

/-- No other command, and no other STREAM_NEXT, sets END. -/
theorem exec_endFlag (hexec : exec i s = .next t) (hend : t.endFlag = true) :
    i = .streamNext ∧ s.stActive = true ∧ s.streamRest = 0 := by
  obtain hs | ⟨e, rfl⟩ | ⟨e, -, -, rfl⟩ := exec_next_cases hexec
  · cases hs
    case streamEnd hopen hrest => exact ⟨rfl, hopen, hrest⟩
    all_goals simp at hend
  · simp at hend
  · simp at hend

theorem exec_endFlag_iff (hexec : exec i s = .next t) :
    t.endFlag = true ↔ i = .streamNext ∧ s.stActive = true ∧ s.streamRest = 0 := by
  refine ⟨exec_endFlag hexec, ?_⟩
  rintro ⟨rfl, hopen, hrest⟩
  rw [exec_streamNext_exhausted hopen hrest] at hexec
  cases hexec
  rfl

theorem exec_pending (hexec : exec i s = .next t) : t.pending = none := by
  obtain hs | ⟨e, rfl⟩ | ⟨e, -, -, rfl⟩ := exec_next_cases hexec
  · cases hs <;> rfl
  · rfl
  · rfl

/-- In a state that meets the invariants an open stream is exhausted exactly when its cursor is at its end. -/
theorem StateInv.stEnd_le_stCur_iff (h : StateInv s) (hopen : s.stActive = true) :
    s.stEnd.toNat ≤ s.stCur.toNat ↔ s.stCur = s.stEnd := by
  obtain ⟨hcur, -⟩ := h.stream hopen
  rw [← BitVec.toNat_inj]
  omega

end

/-- Settles O53: END comes from the one way in which STREAM_NEXT succeeds at exhaustion. -/
theorem endOnlyAtExhaustion : Obligations.EndOnlyAtExhaustion := by
  unfold Obligations.EndOnlyAtExhaustion
  intro i s t hexec
  have hiff := exec_endFlag_iff hexec
  rw [streamRest_eq_zero_iff] at hiff
  refine ⟨hiff, fun hend => ?_, exec_pending hexec, fun hinv => hiff.trans ?_⟩
  · obtain ⟨rfl, hopen, hrest⟩ := exec_endFlag hexec hend
    rw [exec_streamNext_exhausted hopen hrest] at hexec
    cases hexec
    exact ⟨rfl, rfl⟩
  · exact and_congr_right fun _ => and_congr_right hinv.stEnd_le_stCur_iff

end Sys2Proof.Machine
end

section
/-!
PROOFS. The STATUS word bit by bit (R22, R221), and the invariants of R40 in every state that a run reaches.
-/

namespace Sys2Proof.Machine

/-! ### The STATUS word -/

theorem getLsbD_bitAt {i : Nat} (hi : i < 32) (b : Bool) (j : Nat) :
    (bitAt i b).getLsbD j = (decide (j = i) && b) := by
  simp only [bitAt, BitVec.getLsbD_shiftLeft, BitVec.getLsbD_setWidth, BitVec.getLsbD_ofBool]
  by_cases hj : j = i
  · simp [hj, hi]
  · by_cases hlt : j < i
    · simp [hj, hlt]
    · simp [hj, show j - i ≠ 0 by omega]

/-- Every bit of STATUS (R22): five flags, the error code from bit 8 on, and nothing else. -/
theorem getLsbD_statusWord (s : State) (i : Nat) :
    s.statusWord.getLsbD i =
      (decide (i = 0) && s.busy || decide (i = 1) && s.endFlag || decide (i = 2) && s.tagValid
        || decide (i = 3) && s.chValid || decide (i = 4) && s.stActive
        || decide (8 ≤ i) && (errField s.err).getLsbD (i - 8)) := by
  simp only [State.statusWord, BitVec.getLsbD_or, getLsbD_bitAt, Nat.reduceLT, BitVec.getLsbD_shiftLeft,
    BitVec.getLsbD_setWidth]
  congr 1
  by_cases h8 : 8 ≤ i
  · by_cases h16 : i < 16
    · simp [h8, show i < 32 by omega, show i - 8 < 32 by omega]
    · simp [BitVec.getLsbD_of_ge (errField s.err) (i - 8) (by omega)]
  · simp [h8]

/-- The bits above the flags that are not the error code's are reserved. -/
theorem getLsbD_statusWord_reserved (s : State) {i : Nat} (hflags : 5 ≤ i) (hcode : i < 8 ∨ 16 ≤ i) :
    s.statusWord.getLsbD i = false := by
  have herr : (decide (8 ≤ i) && (errField s.err).getLsbD (i - 8)) = false := by
    obtain h8 | h16 := hcode
    · simp [h8]
    · simp [BitVec.getLsbD_of_ge (errField s.err) (i - 8) (by omega)]
  rw [getLsbD_statusWord, herr]
  simp [show i ≠ 0 by omega, show i ≠ 1 by omega, show i ≠ 2 by omega, show i ≠ 3 by omega, show i ≠ 4 by omega]

theorem extractLsb'_statusWord_reserved (s : State) {a n : Nat} (hflags : 5 ≤ a) (hcode : a + n ≤ 8 ∨ 16 ≤ a) :
    s.statusWord.extractLsb' a n = 0 := by
  refine BitVec.eq_of_getLsbD_eq fun j hj => ?_
  rw [BitVec.getLsbD_extractLsb', getLsbD_statusWord_reserved s (by omega) (by omega)]
  simp

theorem extractLsb'_statusWord_err (s : State) : s.statusWord.extractLsb' 8 8 = errField s.err := by
  refine BitVec.eq_of_getLsbD_eq fun j hj => ?_
  rw [BitVec.getLsbD_extractLsb', getLsbD_statusWord, Nat.add_sub_cancel_left]
  simp [hj, show ∀ k < 8, 8 + j ≠ k by omega]

theorem errField_mem (e : Option CmdError) :
    errField e ∈ [0x00#8, 0x01#8, 0x02#8, 0x03#8, 0x04#8, 0x05#8, 0x06#8, 0x10#8, 0x11#8, 0x12#8, 0x13#8, 0x14#8,
      0x15#8] := by
  cases e with
  | none => decide
  | some e => cases e <;> decide

/-- Settles O57, bit by bit. -/
theorem statusWordFields : Obligations.StatusWordFields := by
  unfold Obligations.StatusWordFields
  refine ⟨by decide, fun s => ?_⟩
  rw [extractLsb'_statusWord_reserved s (by decide) (by decide), extractLsb'_statusWord_err,
    extractLsb'_statusWord_reserved s (by decide) (by decide)]
  simp only [getLsbD_statusWord]
  simp

/-! ### Every reachable state -/

/-- What every step keeps holds along a run. -/
theorem runSteps_keeps_stateInv {k : Nat} {s t : State} (h : StateInv s) (hrun : runSteps k s = .next t) :
    StateInv t := by
  induction k generalizing s with
  | zero =>
    cases hrun
    exact h
  | succ k ih =>
    unfold runSteps at hrun
    split at hrun
    next u hstep => exact ih (step_keeps_stateInv h hstep) hrun
    · cases hrun
    · cases hrun

theorem getLsbD_statusWord_zero_iff (s : State) : s.statusWord.getLsbD 0 = true ↔ s.pending ≠ none := by
  rw [getLsbD_statusWord]
  simp [State.busy, Option.isSome_iff_ne_none]

/-- Settles O58: the state after reset meets the invariants, and every step keeps them. -/
theorem invariantsOfReachableStates : Obligations.InvariantsOfReachableStates := by
  unfold Obligations.InvariantsOfReachableStates
  intro c program turns draws k s hc hrun _
  have h : StateInv s := by
    refine runSteps_keeps_stateInv ?_ hrun
    exact { StateInv.resetWith hc with }
  refine ⟨h.tag, fun hvalid => ⟨h.chType hvalid, h.chRange hvalid⟩, h.stream, getLsbD_statusWord_zero_iff s,
    ⟨?_, ?_⟩, ?_⟩
  · exact extractLsb'_statusWord_reserved s (by decide) (by decide)
  · exact extractLsb'_statusWord_reserved s (by decide) (by decide)
  · rw [extractLsb'_statusWord_err]
    exact errField_mem s.err

end Sys2Proof.Machine
end

section
/-!
PROOFS. The host's access to registers and buffers: a write while a command is pending (R61), what a transaction leaves
unchanged (R57, R203), and an IbufWrite into the descriptor's payload (R66, R257).
-/

namespace Sys2Proof.Machine

/-! ### Writes while a command is pending -/

section
variable {s : State} {w : Word}

theorem State.busy_of_pending (h : s.pending = some w) : s.busy = true := by
  simp [State.busy, h]

/-- The BUSY check of a register write comes before its width and offset are looked at (R191, R192). -/
theorem perform_regWrite_busy (h : s.busy = true) (width off : Nat) (v : Word) :
    perform (.regWrite width off v) s = .fault .writeWhileBusy := by
  simp [perform, hostRegWrite, h]

/-- The BUSY check of an IbufWrite comes before its address is looked at (R194). -/
theorem perform_ibufWrite_busy (h : s.busy = true) (a : Nat) (b : Byte) :
    perform (.ibufWrite a b) s = .fault .writeWhileBusy := by
  simp [perform, hostIbufWrite, h]

end

/-- Settles O13: BUSY is 1 while a command is pending, and both kinds of write check it first. -/
theorem everyWriteWhileBusyFaults : Obligations.EveryWriteWhileBusyFaults := by
  unfold Obligations.EveryWriteWhileBusyFaults
  intro s w hpending
  have hbusy : s.busy = true := State.busy_of_pending hpending
  exact ⟨perform_regWrite_busy hbusy, perform_ibufWrite_busy hbusy⟩

/-! ### What a transaction leaves unchanged -/

section
variable {s t : State}

/-- A read, of a register or of a byte of either buffer, only records a value (R193, R195, R196). -/
theorem perform_read_next {x : Txn} (h : perform x s = .next t)
    (hread : (∃ width off, x = .regRead width off) ∨ (∃ a, x = .ibufRead a) ∨ ∃ a, x = .obufRead a) :
    ∃ r, t = s.record r := by
  obtain ⟨width, off, rfl⟩ | ⟨a, rfl⟩ | ⟨a, rfl⟩ := hread
  · simp only [perform, hostRegRead] at h
    split at h
    · cases h
    split at h
    · cases h
    · cases h; exact ⟨_, rfl⟩
  · simp only [perform, hostIbufRead] at h
    split at h
    · cases h
    · cases h; exact ⟨_, rfl⟩
  · simp only [perform, hostObufRead] at h
    split at h
    · cases h
    · cases h; exact ⟨_, rfl⟩

end

/-- Settles O18: a read only records a value, and of the other transactions Reset alone writes outside the operands,
STATUS and IBUF. -/
theorem hostTransactionFrame : Obligations.HostTransactionFrame := by
  unfold Obligations.HostTransactionFrame
  refine ⟨fun s t x hperform hread => ?_, fun s t x hperform hx => ?_, fun s t x => perform_cfg⟩
  · obtain ⟨r, rfl⟩ := perform_read_next hperform hread
    rfl
  · obtain ⟨-, w, rfl⟩ | ⟨-, v, rfl⟩ | ⟨-, v, rfl⟩ | ⟨-, v, rfl⟩ | ⟨-, v, rfl⟩ | ⟨-, a, b, -, rfl⟩ | ⟨r, rfl⟩
        | ⟨hreset, -⟩ := perform_next_cases hperform
    · rfl
    · rfl
    · rfl
    · rfl
    · rfl
    · rfl
    · rfl
    · exact absurd hreset hx

/-! ### The descriptor refers to IBUF -/

/-- A buffer that holds `bs`, with one of its cells written, holds `bs` with that byte replaced. -/
theorem Holds.memWrite_set {m : Memory} {a : Nat} {bs : List Byte} (h : Holds m a bs) {k : Nat} (hk : k < bs.length)
    (b : Byte) : Holds (memWrite m (a + k) b) a (bs.set k b) := by
  intro j hj
  by_cases hjk : k = j
  · subst hjk
    simp [hk]
  · rw [memLookup_memWrite_other _ _ (by omega), List.getElem?_set_ne hjk]
    exact h j (by simpa using hj)

section
variable {s t : State}

/-- IbufWrite (R194): with BUSY = 0 and inside IBUF it sets one cell, and otherwise it has no next state. -/
theorem perform_ibufWrite_next_iff {a : Nat} {b : Byte} :
    perform (.ibufWrite a b) s = .next t ↔
      s.busy = false ∧ a < s.cfg.ibufSize ∧ t = { s with ibuf := memWrite s.ibuf a b } := by
  simp only [perform, hostIbufWrite]
  split
  next hbusy => simp [hbusy]
  next hbusy =>
    split
    next hout => simp [Nat.not_lt.mpr hout]
    next hin => simp [hbusy, Nat.lt_of_not_le hin, eq_comm]

/-- CHUNK_CRC (R142) of a descriptor whose payload IBUF holds. -/
theorem exec_chunkCrc_of_holds {p : List Byte} (hchunk : s.chValid = true)
    (hin : s.chPoff.toNat + s.chLen.toNat ≤ s.cfg.ibufSize) (hlen : p.length = s.chLen.toNat)
    (hp : Holds s.ibuf s.chPoff.toNat p) :
    exec .chunkCrc s = .next (afterSuccess { s with chCrc := crc32 (wordBytes s.chType ++ p) }) := by
  have hread : s.readPayload = .ok p := memRead_of_holds (.inr hin) hlen hp
  simp [exec, execChunkCrc, hchunk, hread, commit_eq, State.chunkType, chunkCrc_eq]

end

/-- Settles O37: the write replaces one byte of what IBUF holds at the descriptor's payload, and CHUNK_CRC reads that. -/
theorem chunkCrcFollowsIbuf : Obligations.ChunkCrcFollowsIbuf := by
  unfold Obligations.ChunkCrcFollowsIbuf
  intro s t p k b hchunk hin hlen hp hk hwrite
  obtain ⟨-, -, rfl⟩ := perform_ibufWrite_next_iff.mp hwrite
  exact ⟨_, exec_chunkCrc_of_holds hchunk hin (List.length_set.trans hlen) (hp.memWrite_set hk b), rfl⟩

end Sys2Proof.Machine
end

section
/-!
PROOFS. How a command stops with a model fault (R198, R232), and that in a state that meets the invariants an unwritten cell
of IBUF is the only cause (R59).
-/

namespace Sys2Proof.Machine

/-- The ways in which the command `i`, begun in `s`, stops with the model fault `f`: one constructor for each read of IBUF
that can fault, with the checks it comes after. CRC_INIT, TAG_CONSTRUCT, CHUNK_SET and SIG_EMIT have none. -/
inductive CommandFault (s : State) : Instr → Fault → Prop
  | crcFeed (f : Fault) (hin : s.argInRange) (hread : s.memRead s.argStart s.argCount = .error f) :
    CommandFault s .crcFeed f
  | tagParse (f : Fault) (hin : s.argInRange) (hcount : s.argCount = 4) (hread : s.memRead4 s.argStart = .error f) :
    CommandFault s .tagParse f
  | chunkCrc (f : Fault) (hchunk : s.chValid = true) (hread : s.readPayload = .error f) :
    CommandFault s .chunkCrc f
  | chunkSerialize (f : Fault) (hchunk : s.chValid = true) (hfit : s.outFits (12 + s.chLen.toNat))
      (hread : s.readPayload = .error f) :
    CommandFault s .chunkSerialize f
  | chunkParse (f : Fault) (hin : s.argInRange) (hparse : s.parseChunk s.argStart s.argCount = .error (.fault f)) :
    CommandFault s .chunkParse f
  | streamOpen (f : Fault) (hin : s.argInRange) (hcount : 8 ≤ s.argCount) (hread : s.memRead s.argStart 8 = .error f) :
    CommandFault s .streamOpen f
  | streamNextLength (f : Fault) (hopen : s.stActive = true) (hrest : 4 ≤ s.streamRest)
      (hread : s.memRead4 s.stCur.toNat = .error f) :
    CommandFault s .streamNext f
  | streamNextRecord (f : Fault) (q : Quad) (hopen : s.stActive = true) (hread : s.memRead4 s.stCur.toNat = .ok q)
      (hfit : 12 + (be32 q).toNat ≤ s.streamRest)
      (hparse : s.parseChunk s.stCur.toNat (12 + (be32 q).toNat) = .error (.fault f)) :
    CommandFault s .streamNext f

section
variable {s : State} {f : Fault}

theorem execCrcFeed_fault (h : execCrcFeed s = .fault f) : CommandFault s .crcFeed f := by
  unfold execCrcFeed at h
  split at h
  · split at h
    · cases h; exact .crcFeed _ ‹_› ‹_›
    · cases h
  · cases h

theorem execTagParse_fault (h : execTagParse s = .fault f) : CommandFault s .tagParse f := by
  unfold execTagParse at h
  split at h
  · cases h
  next hin =>
    split at h
    · cases h
    next hcount =>
      split at h
      · cases h; exact .tagParse _ (not_not.mp hin) (not_not.mp hcount) ‹_›
      · split at h <;> cases h

theorem execChunkCrc_fault (h : execChunkCrc s = .fault f) : CommandFault s .chunkCrc f := by
  unfold execChunkCrc at h
  split at h
  · cases h
  next hchunk =>
    split at h
    · cases h; exact .chunkCrc _ (Bool.eq_true_of_not_eq_false hchunk) ‹_›
    · cases h

theorem execChunkSerialize_fault (h : execChunkSerialize s = .fault f) : CommandFault s .chunkSerialize f := by
  unfold execChunkSerialize at h
  split at h
  · cases h
  next hchunk =>
    split at h
    · cases h
    next hfit =>
      split at h
      · cases h; exact .chunkSerialize _ (Bool.eq_true_of_not_eq_false hchunk) (not_not.mp hfit) ‹_›
      · cases h

theorem execChunkParse_fault (h : execChunkParse s = .fault f) : CommandFault s .chunkParse f := by
  unfold execChunkParse at h
  split at h
  · cases h
  next hin =>
    split at h
    · cases h; exact .chunkParse _ (not_not.mp hin) ‹_›
    · cases h
    · cases h

theorem execStreamOpen_fault (h : execStreamOpen s = .fault f) : CommandFault s .streamOpen f := by
  unfold execStreamOpen at h
  split at h
  · cases h
  next hin =>
    split at h
    · cases h
    next hcount =>
      split at h
      · cases h; exact .streamOpen _ (not_not.mp hin) (Nat.le_of_not_lt hcount) ‹_›
      · split at h <;> cases h

theorem execStreamNext_fault (h : execStreamNext s = .fault f) : CommandFault s .streamNext f := by
  unfold execStreamNext at h
  split at h
  · cases h
  next hclosed =>
    have hopen : s.stActive = true := Bool.eq_true_of_not_eq_false hclosed
    split at h
    · cases h
    split at h
    · cases h
    next hrest =>
      split at h
      · cases h; exact .streamNextLength _ hopen (Nat.le_of_not_lt hrest) ‹_›
      split at h
      · cases h
      next hfit =>
        split at h
        · cases h; exact .streamNextRecord _ _ hopen ‹_› (Nat.le_of_not_lt hfit) ‹_›
        · cases h
        · cases h

theorem exec_fault {i : Instr} (h : exec i s = .fault f) : CommandFault s i f := by
  cases i with
  | crcInit => cases h
  | crcFeed => exact execCrcFeed_fault h
  | tagConstruct =>
    simp only [exec, execTagConstruct] at h
    split at h <;> cases h
  | tagParse => exact execTagParse_fault h
  | chunkSet =>
    simp only [exec, execChunkSet] at h
    (repeat' split at h) <;> cases h
  | chunkCrc => exact execChunkCrc_fault h
  | chunkSerialize => exact execChunkSerialize_fault h
  | chunkParse => exact execChunkParse_fault h
  | streamOpen => exact execStreamOpen_fault h
  | streamNext => exact execStreamNext_fault h
  | sigEmit =>
    simp only [exec, execSigEmit] at h
    split at h <;> cases h

/-- Inside IBUF `parse_chunk` faults at an unwritten cell only. -/
theorem parseChunk_fault_inside {a n : Nat} (hin : a + n ≤ s.cfg.ibufSize)
    (h : s.parseChunk a n = .error (.fault f)) : f = .unwrittenRead := by
  simpa using parseChunk_error hin h

/-- What is left of the open stream lies in IBUF (R40 item 3). -/
theorem StateInv.streamRange_inside (h : StateInv s) {n : Nat} (hopen : s.stActive = true) (hn : n ≤ s.streamRest) :
    s.stCur.toNat + n ≤ s.cfg.ibufSize := by
  obtain ⟨hcur, hend⟩ := h.stream hopen
  unfold State.streamRest at hn
  omega

/-- In a state that meets the invariants the range of every read of a command lies in IBUF, by the check it comes after
(R59) or by R40 item 2 or 3, so the read faults at an unwritten cell only. -/
theorem CommandFault.eq_unwrittenRead {i : Instr} (hf : CommandFault s i f) (h : StateInv s) : f = .unwrittenRead := by
  cases hf with
  | crcFeed _ hin hread => exact (bufReadBytes_error_inside hin hread).1
  | tagParse _ hin hcount hread => exact (memRead4_error_inside (hcount ▸ hin) hread).1
  | chunkCrc _ hchunk hread => exact (bufReadBytes_error_inside (h.chRange hchunk) hread).1
  | chunkSerialize _ hchunk hfit hread => exact (bufReadBytes_error_inside (h.chRange hchunk) hread).1
  | chunkParse _ hin hparse => exact parseChunk_fault_inside hin hparse
  | streamOpen _ hin hcount hread =>
    exact (bufReadBytes_error_inside ((Nat.add_le_add_left hcount _).trans hin) hread).1
  | streamNextLength _ hopen hrest hread => exact (memRead4_error_inside (h.streamRange_inside hopen hrest) hread).1
  | streamNextRecord _ q hopen hread hfit hparse =>
    exact parseChunk_fault_inside (h.streamRange_inside hopen hfit) hparse

/-- A command completes or stops with a model fault; none is refused. -/
theorem exec_next_or_fault (i : Instr) (s : State) : (∃ t, exec i s = .next t) ∨ ∃ f, exec i s = .fault f := by
  cases hr : exec i s with
  | next t => exact .inl ⟨t, rfl⟩
  | fault f => exact .inr ⟨f, rfl⟩
  | refused r =>
    have hending := exec_ending i s
    rw [hr] at hending
    nomatch hending

end

/-- Settles O54, by the reads of IBUF that can stop a command. -/
theorem commandsCompleteOrReadUnwritten : Obligations.CommandsCompleteOrReadUnwritten := by
  unfold Obligations.CommandsCompleteOrReadUnwritten
  refine ⟨fun i s h => ?_, fun i s hi => ?_⟩
  · obtain hnext | ⟨f, hfault⟩ := exec_next_or_fault i s
    · exact .inl hnext
    · exact .inr ((exec_fault hfault).eq_unwrittenRead h ▸ hfault)
  · obtain hnext | ⟨f, hfault⟩ := exec_next_or_fault i s
    · exact hnext
    · cases exec_fault hfault <;> simp at hi

end Sys2Proof.Machine
end

section
/-!
PROOFS. The command word (R70 to R73): decoding and encoding agree, a word is legal exactly when it decodes, and what an issued
word does.
-/

namespace Sys2Proof

/-! ### The two fields and the opcode map -/

/-- MBZ and OPC are all of a command word (R70). -/
theorem word_ext_fields {v w : Word} (hmbz : mbzField v = mbzField w) (hopc : opcField v = opcField w) : v = w := by
  refine BitVec.eq_of_getLsbD_eq fun i hi => ?_
  by_cases hlow : i < 8
  · have hbit := congrArg (BitVec.getLsbD · i) hopc
    simpa [opcField, hlow] using hbit
  · have hbit := congrArg (BitVec.getLsbD · (i - 8)) hmbz
    simpa [mbzField, show i - 8 < 24 by omega, show 8 + (i - 8) = i by omega] using hbit

@[simp] theorem mbzField_encode (i : Instr) : mbzField (encode i) = 0 := by
  cases i <;> decide

/-- Each row of the map (R71) names the OPC of its command's word. -/
theorem fst_eq_opcField_encode {p : BitVec 8 × Instr} (h : p ∈ opcodeMap) : p.1 = opcField (encode p.2) := by
  have hrows : ∀ q ∈ opcodeMap, q.1 = opcField (encode q.2) := by decide
  exact hrows p h

/-! ### Decoding -/

/-- A word decodes to `i` exactly when its MBZ field is zero and the map's row for its OPC is `i` (R73). -/
theorem decode_eq_ok_iff {w : Word} {i : Instr} :
    decode w = .ok i ↔ mbzField w = 0 ∧ opcodeMap.lookup (opcField w) = some i := by
  unfold decode
  by_cases hmbz : mbzField w = 0
  · rw [if_neg (not_not.mpr hmbz)]
    cases opcodeMap.lookup (opcField w) <;> simp [hmbz]
  · rw [if_pos hmbz]
    exact ⟨nofun, fun h => absurd h.1 hmbz⟩

theorem decode_encode (i : Instr) : decode (encode i) = .ok i := by
  cases i <;> rfl

theorem encode_of_decode {w : Word} {i : Instr} (h : decode w = .ok i) : encode i = w := by
  obtain ⟨hmbz, hrow⟩ := decode_eq_ok_iff.mp h
  obtain ⟨before, after, hmap, -⟩ := List.lookup_eq_some_iff.mp hrow
  have hmem : (opcField w, i) ∈ opcodeMap := by simp [hmap]
  exact word_ext_fields ((mbzField_encode i).trans hmbz.symm) (fst_eq_opcField_encode hmem).symm

/-- A word decodes exactly when it is legal by R73: its MBZ field is zero and its OPC stands in the map. -/
theorem exists_decode_iff {w : Word} :
    (∃ i, decode w = .ok i) ↔ mbzField w = 0 ∧ opcField w ∈ opcodeMap.map Prod.fst := by
  have hrow : (∃ i, opcodeMap.lookup (opcField w) = some i) ↔ opcField w ∈ opcodeMap.map Prod.fst := by
    rw [← Option.isSome_iff_exists, List.lookup_isSome_iff]
    simp only [List.mem_map, beq_iff_eq, eq_comm (a := opcField w)]
  simp only [decode_eq_ok_iff, exists_and_left, hrow]

namespace Machine

/-- Settles O2: the two fields are all of a word, and the map's rows agree with the encoder. -/
theorem decodeEncodeAgree : Obligations.DecodeEncodeAgree := by
  unfold Obligations.DecodeEncodeAgree
  exact fun w i => ⟨encode_of_decode, fun h => h ▸ decode_encode i⟩

/-- Settles O1: the words of R71's table are those of the encoder. -/
theorem opcodeMapWords : Obligations.OpcodeMapWords := by
  unfold Obligations.OpcodeMapWords
  exact ⟨decode_encode .crcInit, decode_encode .crcFeed, decode_encode .tagConstruct, decode_encode .tagParse,
    decode_encode .chunkSet, decode_encode .chunkCrc, decode_encode .chunkSerialize, decode_encode .chunkParse,
    decode_encode .streamOpen, decode_encode .streamNext, decode_encode .sigEmit⟩

/-! ### What an issued word does -/

section
variable {s : State} {w : Word}

theorem runWord_of_ok {i : Instr} (h : decode w = .ok i) (s : State) : runWord w s = exec i s := by
  simp [runWord, h]

theorem runWord_of_error {d : DecodeError} (h : decode w = .error d) (s : State) :
    runWord w s = .next (afterError .illegalCommand s) := by
  simp [runWord, h, raise_eq]

/-- A CMD write while BUSY = 0 issues its word, whatever the word (R192). -/
theorem perform_cmdWrite (h : s.busy = false) (w : Word) : perform (.regWrite 32 0x00 w) s = .next (s.issue w) := by
  have hcmd : regAt 0x00 = some .cmd := rfl
  simp [perform, hostRegWrite, h, hcmd]

end

/-- Settles O3: the legal words of R73 are those that decode. -/
theorem everyWordIsDecided : Obligations.EveryWordIsDecided := by
  unfold Obligations.EveryWordIsDecided
  intro w s
  refine ⟨fun hlegal => ?_, fun hillegal => ⟨?_, rfl⟩, fun hidle => ⟨s.issue w, perform_cmdWrite hidle w, rfl, rfl⟩⟩
  · obtain ⟨i, hdecode⟩ := exists_decode_iff.mpr hlegal
    exact ⟨i, encode_of_decode hdecode, hdecode, runWord_of_ok hdecode s⟩
  · cases hdecode : decode w with
    | ok i => exact absurd (exists_decode_iff.mp ⟨i, hdecode⟩) hillegal
    | error d => exact runWord_of_error hdecode s

end Machine

end Sys2Proof
end

section
/-!
PROOFS. The host's program (R77, R78, R199): what a turn of the host does at each kind of line, and one round of WAIT.
-/

namespace Sys2Proof.Machine

section
variable {s t : State} {r : List Agent} {m v : Word} {p : Nat}

/-! ### A move of the host, by the line it comes to -/

/-- The position in the program is the host's own: no transaction moves it, not even Reset. -/
theorem perform_hostPos {x : Txn} (h : perform x s = .next t) : t.hostPos = s.hostPos := by
  obtain ⟨-, w, rfl⟩ | ⟨-, v, rfl⟩ | ⟨-, v, rfl⟩ | ⟨-, v, rfl⟩ | ⟨-, v, rfl⟩ | ⟨-, a, b, -, rfl⟩ | ⟨rd, rfl⟩ | ⟨-, rfl⟩ :=
    perform_next_cases h
  all_goals rfl

theorem hostMove_of_end (h : s.program[s.hostPos]? = none) : hostMove s = .next s := by
  simp [hostMove, h]

theorem hostMove_of_txn {x : Txn} (hline : s.program[s.hostPos]? = some (.txn x)) (hperform : perform x s = .next t) :
    hostMove s = .next { t with hostPos := s.hostPos + 1 } := by
  simp [hostMove, hline, hperform, State.nextLine, perform_hostPos hperform]

theorem hostMove_of_gotoIf (hline : s.program[s.hostPos]? = some (.gotoIf m v p)) :
    hostMove s = .next { s with hostPos := if s.branchTaken m v then p else s.hostPos + 1 } := by
  cases htaken : s.branchTaken m v <;> simp [hostMove, hline, htaken, State.nextLine]

theorem branchTaken_of_nil (h : s.recorded = []) : s.branchTaken m v = false := by
  simp [State.branchTaken, h]

theorem branchTaken_of_append {xs : List Reading} {rd : Reading} (h : s.recorded = xs ++ [rd]) :
    s.branchTaken m v = (readingValue rd &&& m == v) := by
  simp [State.branchTaken, h]

theorem hostMove_of_gotoIf_unread (hline : s.program[s.hostPos]? = some (.gotoIf m v p)) (h : s.recorded = []) :
    hostMove s = .next { s with hostPos := s.hostPos + 1 } := by
  simp [hostMove_of_gotoIf hline, branchTaken_of_nil h]

theorem hostMove_of_gotoIf_read {xs : List Reading} {rd : Reading}
    (hline : s.program[s.hostPos]? = some (.gotoIf m v p)) (h : s.recorded = xs ++ [rd]) :
    hostMove s = .next { s with hostPos := if readingValue rd &&& m = v then p else s.hostPos + 1 } := by
  simp [hostMove_of_gotoIf hline, branchTaken_of_append h]

/-! ### A turn of the host -/

theorem step_of_hostTurn (hf : s.faulted = none) (hturns : s.turns = .host :: r) :
    step s = hostMove { s with turns := r } := by
  rw [step_of_host hf (mover_of_turns hturns), popTurn_of_turns hturns]

theorem runSteps_succ_of_step (h : step s = .next t) (k : Nat) : runSteps (k + 1) s = runSteps k t := by
  simp [runSteps, h]

theorem regAt_regOffset (r : Reg) : regAt (regOffset r) = some r := by
  cases r <;> rfl

/-- RD of a register (R77) records its value, whatever BUSY is (R193). -/
theorem perform_rd (s : State) (r : Reg) :
    perform (.regRead 32 (regOffset r)) s = .next (s.record (.word (s.regValue r))) := by
  simp [perform, hostRegRead, regAt_regOffset]

/-- WAIT's branch tests BUSY, bit 0 of STATUS (R22, R78). -/
theorem statusWord_and_one_iff (s : State) : s.statusWord &&& 1 = 1 ↔ s.pending ≠ none := by
  rw [← getLsbD_statusWord_zero_iff, show (1 : Word) = 1#32 from rfl, BitVec.and_one_eq_setWidth_ofBool_getLsbD]
  cases s.statusWord.getLsbD 0 <;> decide

end

/-- Settles O8, by the kinds of line the host can come to. -/
theorem hostTurnRunsTheNextLine : Obligations.HostTurnRunsTheNextLine := by
  unfold Obligations.HostTurnRunsTheNextLine
  intro s r hf hturns
  rw [step_of_hostTurn hf hturns]
  refine ⟨fun x t hline hperform => ?_, fun m v p xs u hline hread => ?_, fun m v p xs b hline hread => ?_,
    fun m v p hline hunread => ?_, fun hend => ?_⟩
  · exact hostMove_of_txn (s := { s with turns := r }) hline hperform
  · exact hostMove_of_gotoIf_read (s := { s with turns := r }) hline hread
  · exact hostMove_of_gotoIf_read (s := { s with turns := r }) hline hread
  · exact hostMove_of_gotoIf_unread (s := { s with turns := r }) hline hunread
  · exact hostMove_of_end (s := { s with turns := r }) hend

/-! ### One round of WAIT -/

/-- `s` with STATUS read by the first line of a WAIT, and the turns `r` left. -/
def State.afterPoll (s : State) (r : List Agent) : State :=
  { s with turns := r, recorded := s.recorded ++ [.word s.statusWord], hostPos := s.hostPos + 1 }

section
variable {s : State} {r : List Agent}

theorem step_of_poll (hf : s.faulted = none) (hturns : s.turns = .host :: r)
    (hline : s.program[s.hostPos]? = some (hostRd .status)) : step s = .next (s.afterPoll r) := by
  obtain ⟨htxn, -⟩ := hostTurnRunsTheNextLine s r hf hturns
  exact htxn _ _ hline (perform_rd _ .status)

/-- After the poll, WAIT's branch goes on exactly when the value read has BUSY = 0. -/
theorem step_afterPoll (hf : s.faulted = none) (hline : s.program[s.hostPos + 1]? = some (.gotoIf 1 1 s.hostPos)) :
    step (s.afterPoll (.host :: r)) =
      .next { s.afterPoll r with hostPos := if s.pending = none then s.hostPos + 2 else s.hostPos } := by
  obtain ⟨-, hread, -⟩ := hostTurnRunsTheNextLine (s.afterPoll (.host :: r)) r hf rfl
  rw [hread 1 1 s.hostPos s.recorded s.statusWord hline rfl]
  simp only [statusWord_and_one_iff, ne_eq, ite_not]
  rfl

end

/-- Settles O10: the first turn records STATUS, and the second branches on its BUSY bit. -/
theorem waitPollsBusy : Obligations.WaitPollsBusy := by
  unfold Obligations.WaitPollsBusy
  intro s r hf hlines hturns
  have hpoll : step s = .next (s.afterPoll (.host :: r)) := step_of_poll hf hturns (hlines 0 (by decide))
  rw [runSteps_succ_of_step hpoll, runSteps_succ_of_step (step_afterPoll hf (hlines 1 (by decide)))]
  rfl

end Sys2Proof.Machine
end

section
/-!
PROOFS. The chunk type: the flag word of a tag bit by bit (R101, R103), the two commands that set the tag (R105, R106), and
what they leave unchanged.
-/

namespace Sys2Proof.Machine

/-! ### The flag word -/

/-- Every bit of the flag word (R103): the five flags of the tag's bytes, and nothing else. -/
theorem getLsbD_flagsWord (v : Word) (i : Nat) :
    (flagsWord v).getLsbD i =
      (decide (i = 0) && tagCritical (bytesBe32 v) || decide (i = 1) && tagPublic (bytesBe32 v)
        || decide (i = 2) && tagReservedValid (bytesBe32 v) || decide (i = 3) && tagSafeToCopy (bytesBe32 v)
        || decide (i = 4) && tagIsValid (bytesBe32 v)) := by
  simp only [flagsWord, BitVec.getLsbD_or, getLsbD_bitAt, Nat.reduceLT]

theorem getLsbD_flagsWord_reserved (v : Word) {i : Nat} (hi : 5 ≤ i) : (flagsWord v).getLsbD i = false := by
  have hflag : ∀ k < 5, i ≠ k := by omega
  simp [getLsbD_flagsWord, hflag]

theorem extractLsb'_flagsWord_reserved (v : Word) : (flagsWord v).extractLsb' 5 27 = 0 := by
  refine BitVec.eq_of_getLsbD_eq fun j hj => ?_
  rw [BitVec.getLsbD_extractLsb', getLsbD_flagsWord_reserved v (by omega)]
  simp

/-- Settles O28: each flag is the case bit of one byte, in the sense R101 gives it. -/
theorem flagWordBits : Obligations.FlagWordBits := by
  unfold Obligations.FlagWordBits
  intro v
  have hcritical : tagCritical (bytesBe32 v) = !(wordByte v 0).getLsbD 5 := rfl
  have hpublic : tagPublic (bytesBe32 v) = !(wordByte v 1).getLsbD 5 := rfl
  have hreserved : tagReservedValid (bytesBe32 v) = !(wordByte v 2).getLsbD 5 := rfl
  have hsafe : tagSafeToCopy (bytesBe32 v) = (wordByte v 3).getLsbD 5 := rfl
  have hvalid : tagIsValid (bytesBe32 v) = tagReservedValid (bytesBe32 v) := rfl
  rw [extractLsb'_flagsWord_reserved]
  simp only [getLsbD_flagsWord, hvalid, hcritical, hpublic, hreserved, hsafe]
  simp

/-! ### The tag commands -/

section
variable {s : State}

/-- TAG_CONSTRUCT (R105) takes TAG_IN exactly when its bytes are letters. -/
theorem exec_tagConstruct (s : State) :
    exec .tagConstruct s =
      if LetterTag s.tagIn then .next (afterSuccess { s with tag := s.tagIn, tagValid := true })
      else .next (afterError .invalidByte s) := by
  simp only [exec, execTagConstruct, State.tagInBytes, letters4_bytesBe32, commit_eq, raise_eq]

theorem exec_tagParse_of_outside (hout : s.cfg.ibufSize < s.argAddr.toNat + s.argLen.toNat) :
    exec .tagParse s = .next (afterError .rangeError s) :=
  if_pos (Nat.not_le.mpr hout)

/-- The length is checked before any byte is read (R106). -/
theorem exec_tagParse_of_length (hin : s.argAddr.toNat + s.argLen.toNat ≤ s.cfg.ibufSize) (hlen : s.argLen ≠ 4) :
    exec .tagParse s = .next (afterError .invalidLength s) := by
  have hcount : s.argCount ≠ 4 := fun h => hlen (BitVec.eq_of_toNat_eq h)
  have hrange : s.argInRange := hin
  simp only [exec, execTagParse, hrange, not_true_eq_false, if_false, if_pos hcount, raise_eq]

/-- The ARG range of a TAG_PARSE that passes both checks. -/
theorem argRange_of_four (hin : s.argAddr.toNat + 4 ≤ s.cfg.ibufSize) (hlen : s.argLen = 4) :
    s.argInRange ∧ s.argCount = 4 := by
  have hcount : s.argCount = 4 := congrArg BitVec.toNat hlen
  exact ⟨by rwa [State.argInRange, hcount], hcount⟩

theorem exec_tagParse_of_unwritten (hin : s.argAddr.toNat + 4 ≤ s.cfg.ibufSize) (hlen : s.argLen = 4)
    (hunwritten : Unwritten s.ibuf s.argAddr.toNat 4) : exec .tagParse s = .fault .unwrittenRead := by
  obtain ⟨hrange, hcount⟩ := argRange_of_four hin hlen
  have hread : s.memRead4 s.argStart = .error .unwrittenRead := memRead4_of_unwritten hin hunwritten
  simp only [exec, execTagParse, hrange, hcount, hread, not_true_eq_false, ne_eq, if_false]

/-- TAG_PARSE (R106) takes the word that IBUF holds exactly when its bytes are letters. -/
theorem exec_tagParse_of_holds {v : Word} (hin : s.argAddr.toNat + 4 ≤ s.cfg.ibufSize) (hlen : s.argLen = 4)
    (hholds : Holds s.ibuf s.argAddr.toNat (wordBytes v)) :
    exec .tagParse s =
      if LetterTag v then .next (afterSuccess { s with tag := v, tagValid := true })
      else .next (afterError .invalidByte s) := by
  obtain ⟨hrange, hcount⟩ := argRange_of_four hin hlen
  have hread : s.memRead4 s.argStart = .ok (bytesBe32 v) := memRead4_of_holds hin hholds
  simp only [exec, execTagParse, hrange, hcount, hread, not_true_eq_false, ne_eq, if_false, letters4_bytesBe32,
    be32_bytesBe32, commit_eq, raise_eq]

end

/-- Settles O29: the test for letters decides. -/
theorem tagConstructRule : Obligations.TagConstructRule := by
  unfold Obligations.TagConstructRule
  refine ⟨decode_encode .tagConstruct, fun s hletters => ?_, fun s hother => ?_⟩
  · rw [exec_tagConstruct, if_pos hletters]
  · rw [exec_tagConstruct, if_neg hother]

/-- Settles O30, check by check in the order of R106. -/
theorem tagParseRule : Obligations.TagParseRule := by
  unfold Obligations.TagParseRule
  refine ⟨decode_encode .tagParse, fun s => exec_tagParse_of_outside, fun s => exec_tagParse_of_length,
    fun s => exec_tagParse_of_unwritten, fun s v hin hlen hholds hother => ?_, fun s v hin hlen hholds hletters => ?_⟩
  · rw [exec_tagParse_of_holds hin hlen hholds, if_neg hother]
  · rw [exec_tagParse_of_holds hin hlen hholds, if_pos hletters]

/-! ### What the tag commands leave unchanged -/

/-- A tag command takes a new tag, or reports an error and keeps the tag it had. -/
theorem exec_tag_next_cases {i : Instr} {s t : State} (hi : i ∈ [.tagConstruct, .tagParse])
    (h : exec i s = .next t) :
    (∃ v, t = afterSuccess { s with tag := v, tagValid := true }) ∨ ∃ e, t = afterError e s := by
  obtain hsuccess | herror | ⟨e, rfl, -, -⟩ := exec_next_cases h
  · cases hsuccess with
    | tagConstruct => exact .inl ⟨_, rfl⟩
    | tagParse => exact .inl ⟨_, rfl⟩
    | _ => simp at hi
  · exact .inr herror
  · simp at hi

/-- Settles O46: neither way in which a tag command ends writes a buffer or clears TAG_VALID. -/
theorem tagUnitFrame : Obligations.TagUnitFrame := by
  unfold Obligations.TagUnitFrame
  intro i s t hi hexec
  obtain ⟨v, rfl⟩ | ⟨e, rfl⟩ := exec_tag_next_cases hi hexec
  · exact ⟨rfl, fun _ => rfl, fun x => ⟨rfl, rfl⟩⟩
  · exact ⟨rfl, id, fun x => ⟨rfl, rfl⟩⟩

end Sys2Proof.Machine
end

section
/-!
PROOFS. The CRC function (R121 to R124): the shift is linear and loses nothing, hence the table form, the affinity of
CRC32, and that it sees every single bit.
-/

namespace Sys2Proof.Machine

/-! ### The shift, by bits -/

/-- The polynomial's top bit is 1, so the bit a shift drops comes back at the top. -/
theorem getLsbD_crcBit_top (c : Word) : (crcBit c).getLsbD 31 = c.getLsbD 0 := by
  have hpoly : crcPoly.getLsbD 31 = true := by decide
  have htop : (c >>> 1).getLsbD 31 = false := by simp
  unfold crcBit
  split
  next hodd => rw [BitVec.getLsbD_xor, htop, hpoly, hodd]; rfl
  next heven => simpa [htop] using heven

theorem crcBit_injective : Function.Injective crcBit := by
  intro c d h
  have hlow : c.getLsbD 0 = d.getLsbD 0 := by rw [← getLsbD_crcBit_top, h, getLsbD_crcBit_top]
  have hhigh : c >>> 1 = d >>> 1 := by
    unfold crcBit at h
    rw [hlow] at h
    split at h
    · exact (BitVec.xor_left_inj _).mp h
    · exact h
  refine BitVec.eq_of_getLsbD_eq fun i _ => ?_
  cases i with
  | zero => exact hlow
  | succ i => simpa [Nat.add_comm] using congrArg (BitVec.getLsbD · i) hhigh

theorem crcBit_xor (c d : Word) : crcBit (c ^^^ d) = crcBit c ^^^ crcBit d := by
  unfold crcBit
  rw [BitVec.getLsbD_xor, BitVec.ushiftRight_xor_distrib]
  cases c.getLsbD 0 <;> cases d.getLsbD 0
  · rfl
  · exact BitVec.xor_assoc _ _ _
  · change c >>> 1 ^^^ d >>> 1 ^^^ crcPoly = c >>> 1 ^^^ crcPoly ^^^ d >>> 1
    ac_rfl
  · calc c >>> 1 ^^^ d >>> 1
        = c >>> 1 ^^^ d >>> 1 ^^^ (crcPoly ^^^ crcPoly) := by rw [BitVec.xor_self, BitVec.xor_zero]
      _ = c >>> 1 ^^^ crcPoly ^^^ (d >>> 1 ^^^ crcPoly) := by ac_rfl

theorem crcBits_xor (k : Nat) (c d : Word) : crcBits k (c ^^^ d) = crcBits k c ^^^ crcBits k d := by
  induction k generalizing c d with
  | zero => rfl
  | succ k ih => exact (congrArg (crcBits k) (crcBit_xor c d)).trans (ih _ _)

theorem crcBits_injective (k : Nat) : Function.Injective (crcBits k) := by
  induction k with
  | zero => exact Function.injective_id
  | succ k ih => exact ih.comp crcBit_injective

/-- While the dropped bits are 0, the polynomial does not enter. -/
theorem crcBits_of_low_zero {k : Nat} {c : Word} (h : ∀ i < k, c.getLsbD i = false) : crcBits k c = c >>> k := by
  induction k generalizing c with
  | zero => simp [crcBits]
  | succ k ih =>
    have hbit : crcBit c = c >>> 1 := by rw [crcBit, h 0 (by omega)]; rfl
    rw [crcBits, hbit, ih, Nat.add_comm, BitVec.shiftRight_add]
    intro i hi
    simpa using h (1 + i) (by omega)

/-- Eight shifts move the upper bits down unchanged, and add what they make of the low byte alone. -/
theorem crcBits_eight_eq (x : Word) : crcBits 8 x = (x >>> 8) ^^^ crcBits 8 (x &&& 0xFF#32) := by
  have hmask : ∀ i < 8, (0xFF#32).getLsbD i = true := by decide
  have hhigh : crcBits 8 (x ^^^ (x &&& 0xFF#32)) = x >>> 8 := by
    rw [crcBits_of_low_zero fun i hi => by simp [hmask i hi], BitVec.ushiftRight_xor_distrib,
      BitVec.ushiftRight_and_distrib, show 0xFF#32 >>> 8 = 0#32 by decide, BitVec.and_zero, BitVec.xor_zero]
  rw [← hhigh, ← crcBits_xor, BitVec.xor_assoc, BitVec.xor_self, BitVec.xor_zero]

/-! ### The byte step and the fold -/

theorem crcStep_xor (c d : Word) (a b : Byte) : crcStep (c ^^^ d) (a ^^^ b) = crcStep c a ^^^ crcStep d b := by
  unfold crcStep
  rw [← crcBits_xor, BitVec.setWidth_xor]
  congr 1
  ac_rfl

theorem crcStep_injective_state (b : Byte) : Function.Injective (crcStep · b) :=
  fun _ _ h => (BitVec.xor_left_inj _).mp (crcBits_injective 8 h)

theorem crcStep_injective_byte (c : Word) : Function.Injective (crcStep c) := fun a b h => by
  have hwide : a.setWidth 32 = b.setWidth 32 := (BitVec.xor_right_inj _).mp (crcBits_injective 8 h)
  simpa using congrArg (BitVec.setWidth 8) hwide

theorem crcFold_injective_state (bs : List Byte) : Function.Injective (crcFold · bs) := by
  induction bs with
  | nil => exact Function.injective_id
  | cons b bs ih => exact ih.comp (crcStep_injective_state b)

theorem crcFold_xor {x y : List Byte} (h : x.length = y.length) (c d : Word) :
    crcFold (c ^^^ d) (List.zipWith (· ^^^ ·) x y) = crcFold c x ^^^ crcFold d y := by
  induction x generalizing y c d with
  | nil =>
    obtain rfl : y = [] := List.length_eq_zero_iff.mp h.symm
    rfl
  | cons a x ih =>
    obtain ⟨b, y, rfl⟩ := List.exists_cons_of_length_eq_add_one h.symm
    simp only [List.zipWith_cons_cons, crcFold_cons, crcStep_xor]
    exact ih (by simpa using h) _ _

theorem zipWith_xor_zeros (x : List Byte) : List.zipWith (· ^^^ ·) x (List.replicate x.length 0#8) = x := by
  induction x with
  | nil => rfl
  | cons a x ih => simp [List.replicate_succ, ih]

/-! ### CRC32 -/

theorem crc32_eq (bs : List Byte) : crc32 bs = ~~~ crcFold crcInitial bs := BitVec.xor_allOnes

/-- Settles O24: a shift by eight of a word whose low byte is 0 is only a shift, and the steps are linear. -/
theorem crcTableForm : Obligations.CrcTableForm := by
  unfold Obligations.CrcTableForm
  refine ⟨fun c b => ?_, by decide, by decide, by decide, by decide, by decide⟩
  have hbyte : b.setWidth 32 >>> 8 = 0#32 :=
    BitVec.eq_of_getLsbD_eq fun i _ => by simp
  have hhigh : (c ^^^ b.setWidth 32) >>> 8 = c >>> 8 := by
    rw [BitVec.ushiftRight_xor_distrib, hbyte, BitVec.xor_zero]
  rw [crcStep, crcBits_eight_eq, hhigh, crcStep, BitVec.setWidth_zero, BitVec.xor_zero]

/-- Settles O25: with the zero bytes there are three folds, and the three initial values leave one. -/
theorem crcAffine : Obligations.CrcAffine := by
  unfold Obligations.CrcAffine
  intro x y hlen
  have hinit : crcInitial ^^^ crcInitial ^^^ crcInitial = crcInitial := by decide
  have hfold : crcFold crcInitial (List.zipWith (· ^^^ ·) x y) =
      crcFold crcInitial x ^^^ crcFold crcInitial y ^^^ crcFold crcInitial (List.replicate x.length 0#8) := by
    have hzip : (List.zipWith (· ^^^ ·) x y).length = x.length := by simp [hlen]
    rw [← crcFold_xor hlen, ← crcFold_xor (by simp [hlen]), hinit, ← hzip, zipWith_xor_zeros]
  simp only [crc32_eq, hfold, ← BitVec.not_xor_left, ← BitVec.not_xor_right, BitVec.not_not]

/-- A list with one byte replaced by another has another CRC32: the bytes before agree, the step tells the two bytes
apart (`crcStep_injective_byte`), and the steps after it lose nothing (`crcFold_injective_state`). -/
theorem crc32_set_ne {bs : List Byte} {k : Nat} {a b : Byte} (hk : bs[k]? = some b) (hab : a ≠ b) :
    crc32 (bs.set k a) ≠ crc32 bs := by
  obtain ⟨hlt, rfl⟩ := List.getElem?_eq_some_iff.mp hk
  intro h
  conv at h => rhs; rw [← List.set_getElem_self hlt]
  simp only [crc32_eq, List.set_eq_take_append_cons_drop, hlt, if_true, crcFold_append, crcFold_cons] at h
  exact hab (crcStep_injective_byte _ (crcFold_injective_state _ (BitVec.not_inj.mp h)))

theorem flip_ne (b : Byte) {j : Nat} (hj : j < 8) : b ^^^ (1#8 <<< j) ≠ b := by
  have hbit : ∀ i < 8, 1#8 <<< i ≠ 0#8 := by decide
  exact fun h => hbit j hj ((BitVec.xor_right_inj b).mp (h.trans BitVec.xor_zero.symm))

/-- Settles O26: a byte with one bit flipped is another byte. -/
theorem crcSingleBitSensitivity : Obligations.CrcSingleBitSensitivity := by
  unfold Obligations.CrcSingleBitSensitivity
  exact fun bs k j b hk hj => crc32_set_ne hk (flip_ne b hj)

end Sys2Proof.Machine
end

section
/-!
PROOFS. The CRC generator's commands (R125 to R127): the outcomes of each, what CRC_OUT reads after them, and what they
leave unchanged; and that the accumulator and the chunk CRC are independent (R128).
-/

namespace Sys2Proof.Machine

section
variable {s t : State}

/-! ### The outcomes -/

theorem exec_crcInit (s : State) : exec .crcInit s = .next (afterSuccess { s with crcAcc := crcInitial }) := rfl

theorem exec_crcFeed_of_holds {bs : List Byte} (hin : s.argAddr.toNat + s.argLen.toNat ≤ s.cfg.ibufSize)
    (hlen : bs.length = s.argLen.toNat) (hholds : Holds s.ibuf s.argAddr.toNat bs) :
    exec .crcFeed s = .next (afterSuccess { s with crcAcc := crcFold s.crcAcc bs }) := by
  have hrange : s.argInRange := hin
  have hread : s.memRead s.argStart s.argCount = .ok bs := memRead_of_holds (.inr hin) hlen hholds
  simp only [exec, execCrcFeed, hrange, if_true, hread, commit_eq]

theorem exec_crcFeed_of_outside (hout : s.cfg.ibufSize < s.argAddr.toNat + s.argLen.toNat) :
    exec .crcFeed s = .next (afterError .rangeError s) :=
  if_neg (Nat.not_le.mpr hout)

theorem exec_crcFeed_of_unwritten (hin : s.argAddr.toNat + s.argLen.toNat ≤ s.cfg.ibufSize)
    (hunwritten : Unwritten s.ibuf s.argAddr.toNat s.argLen.toNat) : exec .crcFeed s = .fault .unwrittenRead := by
  have hrange : s.argInRange := hin
  have hread : s.memRead s.argStart s.argCount = .error .unwrittenRead := memRead_of_unwritten hin hunwritten
  simp only [exec, execCrcFeed, hrange, if_true, hread]

/-- A CRC_FEED that answers a next state has fed the bytes of a range inside IBUF, or found the range outside. -/
theorem exec_crcFeed_next_cases (h : exec .crcFeed s = .next t) :
    (∃ bs, s.argAddr.toNat + s.argLen.toNat ≤ s.cfg.ibufSize ∧ bs.length = s.argLen.toNat ∧
        Holds s.ibuf s.argAddr.toNat bs ∧ t = afterSuccess { s with crcAcc := crcFold s.crcAcc bs }) ∨
      (s.cfg.ibufSize < s.argAddr.toNat + s.argLen.toNat ∧ t = afterError .rangeError s) := by
  obtain hin | hout := le_or_gt (s.argAddr.toNat + s.argLen.toNat) s.cfg.ibufSize
  · obtain ⟨bs, -, hlen, hholds⟩ | ⟨-, hunwritten⟩ := memRead_inside_cases s hin
    · rw [exec_crcFeed_of_holds hin hlen hholds] at h
      cases h
      exact .inl ⟨bs, hin, hlen, hholds, rfl⟩
    · rw [exec_crcFeed_of_unwritten hin hunwritten] at h
      cases h
  · rw [exec_crcFeed_of_outside hout] at h
    cases h
    exact .inr ⟨hout, rfl⟩

/-- A CRC_FEED that succeeds has fed the bytes its range holds. -/
theorem exec_crcFeed_success (h : exec .crcFeed s = .next t) (he : t.err = none) :
    ∃ bs, s.argAddr.toNat + s.argLen.toNat ≤ s.cfg.ibufSize ∧ bs.length = s.argLen.toNat ∧
      Holds s.ibuf s.argAddr.toNat bs ∧ t = afterSuccess { s with crcAcc := crcFold s.crcAcc bs } := by
  obtain hfed | ⟨-, rfl⟩ := exec_crcFeed_next_cases h
  · exact hfed
  · simp at he

/-- Feeding the first `n` bytes of a range and then the others is feeding the range. No sum wraps, for the range lies in
IBUF. -/
theorem exec_crcFeed_split {n : Word} (hcfg : s.cfg.Wf) (h : exec .crcFeed s = .next t) (he : t.err = none)
    (hn : n.toNat ≤ s.argLen.toNat) :
    ∃ u v, exec .crcFeed { s with argLen := n } = .next u ∧ u.err = none
      ∧ exec .crcFeed { u with argAddr := s.argAddr + n, argLen := s.argLen - n } = .next v ∧ v.err = none
      ∧ v.crcAcc = t.crcAcc := by
  obtain ⟨bs, hin, hlen, hholds, rfl⟩ := exec_crcFeed_success h he
  obtain ⟨-, hsize, -, -⟩ := hcfg
  have haddr : (s.argAddr + n).toNat = s.argAddr.toNat + n.toNat := BitVec.toNat_add_of_lt (by omega)
  have hrest : (s.argLen - n).toNat = s.argLen.toNat - n.toNat := BitVec.toNat_sub_of_le hn
  have hfirst : (bs.take n.toNat).length = n.toNat := by simp; omega
  rw [← List.take_append_drop n.toNat bs, holds_append_iff, hfirst] at hholds
  obtain ⟨hholdsFirst, hholdsRest⟩ := hholds
  refine ⟨_, _, exec_crcFeed_of_holds (by simp only; omega) hfirst hholdsFirst, rfl,
    exec_crcFeed_of_holds (bs := bs.drop n.toNat) (by simp only [haddr, hrest, afterSuccess_cfg]; omega)
      (by simp [hrest, hlen]) (by simpa only [haddr, afterSuccess_ibuf] using hholdsRest), rfl, ?_⟩
  simp only [afterSuccess_crcAcc]
  rw [← crcFold_append, List.take_append_drop]

/-! ### CRC_OUT -/

/-- CRC_OUT is a CRC32 exactly when CRC_ACC is the fold that CRC32 complements. -/
theorem crcOut_eq_crc32_iff {xs : List Byte} :
    s.regValue .crcOut = crc32 xs ↔ s.crcAcc = crcFold crcInitial xs := by
  rw [crc32_eq]
  exact BitVec.not_inj

end

/-- Settles O21: the one outcome of CRC_INIT, begun in any state. -/
theorem crcInitRule : Obligations.CrcInitRule := by
  unfold Obligations.CrcInitRule
  refine ⟨decode_encode .crcInit, exec_crcInit, fun s t hexec => ?_, fun c => rfl⟩
  rw [exec_crcInit] at hexec
  cases hexec
  have hempty : crc32 [] = 0 := by decide
  exact ⟨(crcOut_eq_crc32_iff.mpr rfl).trans hempty, rfl⟩

/-- Settles O22: the range is in or out, and each of its cells is written or one is not. -/
theorem crcFeedRule : Obligations.CrcFeedRule := by
  unfold Obligations.CrcFeedRule
  refine ⟨decode_encode .crcFeed, fun s bs => exec_crcFeed_of_holds, fun s hin hempty => ?_,
    fun s => exec_crcFeed_of_outside, fun s => exec_crcFeed_of_unwritten, fun s t n => exec_crcFeed_split⟩
  exact exec_crcFeed_of_holds (bs := []) (by simpa [hempty] using hin) (by simp [hempty]) (holds_nil _ _)

/-- Settles O23: a successful feed appends to the bytes that CRC_ACC is the fold of. -/
theorem crcOutTracksFedBytes : Obligations.CrcOutTracksFedBytes := by
  unfold Obligations.CrcOutTracksFedBytes
  refine ⟨fun s t hexec => ?_, fun s t xs hout hexec he => ?_, fun s t hread => ?_⟩
  · rw [exec_crcInit] at hexec
    cases hexec
    exact crcOut_eq_crc32_iff.mpr rfl
  · obtain ⟨bs, -, hlen, hholds, rfl⟩ := exec_crcFeed_success hexec he
    refine ⟨bs, hlen, hholds, crcOut_eq_crc32_iff.mpr ?_⟩
    rw [crcFold_append, ← crcOut_eq_crc32_iff.mp hout]
    rfl
  · obtain ⟨r, rfl⟩ := perform_read_next hread (.inl ⟨_, _, rfl⟩)
    rfl

/-- Settles O45: what the two commands write is in the states they leave. -/
theorem crcUnitFrame : Obligations.CrcUnitFrame := by
  unfold Obligations.CrcUnitFrame
  intro i s t hi hexec
  simp only [List.mem_cons, List.not_mem_nil, or_false] at hi
  obtain rfl | rfl := hi
  · rw [exec_crcInit] at hexec
    cases hexec
    exact ⟨rfl, fun x => ⟨rfl, rfl⟩⟩
  · obtain ⟨bs, -, -, -, rfl⟩ | ⟨-, rfl⟩ := exec_crcFeed_next_cases hexec
    · exact ⟨rfl, fun x => ⟨rfl, rfl⟩⟩
    · exact ⟨rfl, fun x => ⟨rfl, rfl⟩⟩

/-! ### The accumulator and the chunk CRC (R128) -/

/-- An answer with `f` applied to its next state, if there is one. -/
def Result.mapNext (f : State → State) : Result → Result
  | .next t => .next (f t)
  | .fault r => .fault r
  | .refused r => .refused r

/-- `s` with the value `x` in CRC_ACC. -/
def State.setCrcAcc (s : State) (x : Word) : State := { s with crcAcc := x }

section
variable (s : State) (x : Word)

/-! No check and no read of a chunk command looks at CRC_ACC. -/

@[simp] theorem State.setCrcAcc_memRead4 (a : Nat) : (s.setCrcAcc x).memRead4 a = s.memRead4 a := rfl
@[simp] theorem State.setCrcAcc_parseChunk (a n : Nat) : (s.setCrcAcc x).parseChunk a n = s.parseChunk a n := rfl
@[simp] theorem State.setCrcAcc_readPayload : (s.setCrcAcc x).readPayload = s.readPayload := rfl
@[simp] theorem State.setCrcAcc_argStart : (s.setCrcAcc x).argStart = s.argStart := rfl
@[simp] theorem State.setCrcAcc_argCount : (s.setCrcAcc x).argCount = s.argCount := rfl
@[simp] theorem State.setCrcAcc_streamRest : (s.setCrcAcc x).streamRest = s.streamRest := rfl
@[simp] theorem State.setCrcAcc_cfg : (s.setCrcAcc x).cfg = s.cfg := rfl
@[simp] theorem State.setCrcAcc_chValid : (s.setCrcAcc x).chValid = s.chValid := rfl
@[simp] theorem State.setCrcAcc_chLen : (s.setCrcAcc x).chLen = s.chLen := rfl
@[simp] theorem State.setCrcAcc_outPtr : (s.setCrcAcc x).outPtr = s.outPtr := rfl
@[simp] theorem State.setCrcAcc_stCur : (s.setCrcAcc x).stCur = s.stCur := rfl
@[simp] theorem State.setCrcAcc_stActive : (s.setCrcAcc x).stActive = s.stActive := rfl

/-- A chunk command takes the same branch whatever CRC_ACC holds, and carries that value through. -/
theorem exec_setCrcAcc {i : Instr} (hi : i ∈ [.chunkCrc, .chunkSerialize, .chunkParse, .streamNext]) :
    exec i (s.setCrcAcc x) = Result.mapNext (·.setCrcAcc x) (exec i s) := by
  cases i with
  | chunkCrc => fun_cases execChunkCrc s <;> simp [exec, execChunkCrc, *] <;> rfl
  | chunkSerialize => fun_cases execChunkSerialize s <;> simp [exec, execChunkSerialize, *] <;> rfl
  | chunkParse => fun_cases execChunkParse s <;> simp [exec, execChunkParse, *] <;> rfl
  | streamNext => fun_cases execStreamNext s <;> simp [exec, execStreamNext, *] <;> rfl
  | _ => simp at hi

end

/-- A chunk command that computes a chunk CRC does so whatever CH_CRC held. -/
theorem CommandSuccess.of_chCrc {i : Instr} {s t : State} (h : CommandSuccess s i t)
    (hi : i ∈ [.chunkCrc, .chunkSerialize, .chunkParse, .streamNext]) (hend : t.endFlag = false) (x : Word) :
    CommandSuccess { s with chCrc := x } i t := by
  cases h with
  | chunkCrc p hchunk hread => exact .chunkCrc (s := { s with chCrc := x }) p hchunk hread
  | chunkSerialize p hchunk hfit hread => exact .chunkSerialize (s := { s with chCrc := x }) p hchunk hfit hread
  | chunkParse r hin hparse => exact .chunkParse (s := { s with chCrc := x }) r hin hparse
  | streamNext q r hopen hread hfit hparse => exact .streamNext (s := { s with chCrc := x }) q r hopen hread hfit hparse
  | streamEnd => simp at hend
  | _ => simp at hi

theorem CommandSuccess.exec_eq {i : Instr} {s t : State} (h : CommandSuccess s i t) : exec i s = .next t := by
  cases h with
  | crcInit => rfl
  | crcFeed bs hin hread => simp [exec, execCrcFeed, hin, hread, commit_eq]
  | tagConstruct hletters => simp [exec, execTagConstruct, hletters, commit_eq]
  | tagParse q hin hcount hread hletters => 
    have hfour : s.argStart + 4 ≤ s.cfg.ibufSize := hcount ▸ hin
    simp [exec, execTagParse, Nat.not_lt.mpr hfour, hcount, hread, hletters, commit_eq]
  | chunkSet htag hin => simp [exec, execChunkSet, htag, hin, commit_eq]
  | chunkCrc p hchunk hread => simp [exec, execChunkCrc, hchunk, hread, commit_eq]
  | chunkSerialize p hchunk hfit hread => simp [exec, execChunkSerialize, hchunk, hfit, hread, commit_eq]
  | chunkParse r hin hparse => simp [exec, execChunkParse, hin, hparse, commit_eq]
  | streamOpen hin hcount hread => simp [exec, execStreamOpen, hin, Nat.not_lt.mpr hcount, hread, commit_eq]
  | streamNext q r hopen hread hfit hparse =>
    have hrest : s.streamRest ≠ 0 ∧ ¬ s.streamRest < 4 := by omega
    simp [exec, execStreamNext, hopen, hrest, hread, Nat.not_lt.mpr hfit, hparse, commit_eq]
  | streamEnd hopen hrest => exact exec_streamNext_exhausted hopen hrest
  | sigEmit hfit => simp [exec, execSigEmit, hfit, commit_eq]

/-- No CRC command reads or writes CH_CRC. -/
theorem exec_crc_setChCrc {i : Instr} {s t : State} (hi : i ∈ [.crcInit, .crcFeed]) (h : exec i s = .next t)
    (x : Word) : t.chCrc = s.chCrc ∧ exec i { s with chCrc := x } = .next { t with chCrc := x } := by
  simp only [List.mem_cons, List.not_mem_nil, or_false] at hi
  obtain rfl | rfl := hi
  · rw [exec_crcInit] at h
    cases h
    exact ⟨rfl, rfl⟩
  · obtain ⟨bs, hin, hlen, hholds, rfl⟩ | ⟨hout, rfl⟩ := exec_crcFeed_next_cases h
    · exact ⟨rfl, exec_crcFeed_of_holds (s := { s with chCrc := x }) hin hlen hholds⟩
    · exact ⟨rfl, exec_crcFeed_of_outside (s := { s with chCrc := x }) hout⟩

/-- Settles O27. That a chunk command writes no CRC_ACC is `exec_setCrcAcc` for the value that CRC_ACC holds. -/
theorem crcUnitsIndependent : Obligations.CrcUnitsIndependent := by
  unfold Obligations.CrcUnitsIndependent
  refine ⟨fun i s t x hi hexec => ?_, fun i s t x hi hexec he hend => ?_, fun i s t x hi hexec =>
    exec_crc_setChCrc hi hexec x⟩
  · have hcarry (y : Word) : exec i (s.setCrcAcc y) = .next (t.setCrcAcc y) := by rw [exec_setCrcAcc s y hi, hexec]; rfl
    have hsame : t = t.setCrcAcc s.crcAcc := by simpa [hexec] using hexec.symm.trans (hcarry s.crcAcc)
    exact ⟨(congrArg State.crcAcc hsame :), hcarry x⟩
  · exact ((exec_success hexec he).of_chCrc hi hend x).exec_eq

end Sys2Proof.Machine
end

section
/-!
PROOFS. A good record with one bit flipped (R124, R145, R149): no read of it faults, and no other good record of its
length differs from it in one byte.
-/

namespace Sys2Proof.Machine

/-! ### What a range holds -/

theorem Unwritten.mono {m : Memory} {a b n k : Nat} (h : Unwritten m b k) (hab : a ≤ b) (hk : b + k ≤ a + n) :
    Unwritten m a n := by
  obtain ⟨i, hi, hnone⟩ := h
  exact ⟨b - a + i, by omega, by rwa [show a + (b - a + i) = b + i by omega]⟩

/-- A range holds one sequence of bytes. -/
theorem Holds.eq {m : Memory} {a : Nat} {xs ys : List Byte} (hx : Holds m a xs) (hy : Holds m a ys)
    (hlen : xs.length = ys.length) : xs = ys := by
  refine List.ext_getElem? fun i => ?_
  by_cases hi : i < xs.length
  · rw [← hx i hi, hy i (hlen ▸ hi)]
  · simp [Nat.le_of_not_lt hi, hlen ▸ Nat.le_of_not_lt hi]

/-! ### The parser's faults -/

section
variable {s : State} {a n l : Nat} {f : Fault}

theorem parseBody_fault (hin : a + 12 + l ≤ s.cfg.ibufSize) (h : s.parseBody a l = .error (.fault f)) :
    Unwritten s.ibuf (a + 4) (8 + l) := by
  unfold State.parseBody at h
  rcases memRead4_inside_cases s (show a + 4 + 4 ≤ _ by omega) with ⟨ty, hty, -⟩ | ⟨-, hun⟩
  · simp only [hty] at h
    split at h
    · cases h
    rcases memRead_inside_cases s (show a + 8 + l ≤ _ by omega) with ⟨p, hp, -, -⟩ | ⟨-, hun⟩
    · simp only [hp] at h
      rcases memRead4_inside_cases s (show a + 8 + l + 4 ≤ _ by omega) with ⟨w, hw, -⟩ | ⟨-, hun⟩
      · simp only [hw] at h
        split at h <;> cases h
      · exact hun.mono (by omega) (by omega)
    · exact hun.mono (by omega) (by omega)
  · exact hun.mono (by omega) (by omega)

/-- Inside IBUF `parse_chunk` faults only where a cell of its range is unwritten. -/
theorem parseChunk_fault (hin : a + n ≤ s.cfg.ibufSize) (h : s.parseChunk a n = .error (.fault f)) :
    Unwritten s.ibuf a n := by
  unfold State.parseChunk at h
  split at h
  · cases h
  rcases memRead4_inside_cases s (show a + 4 ≤ _ by omega) with ⟨l, hl, -⟩ | ⟨-, hun⟩
  · simp only [hl, be32_bytesBe32] at h
    split at h
    · cases h
    · exact (parseBody_fault (by omega) h).mono (by omega) (by omega)
  · exact hun.mono (by omega) (by omega)

end

/-! ### Records one byte apart -/

theorem set_ne_self {bs : List Byte} {k : Nat} {a b : Byte} (hk : bs[k]? = some b) (hab : a ≠ b) : bs.set k a ≠ bs := by
  obtain ⟨hlt, -⟩ := List.getElem?_eq_some_iff.mp hk
  intro h
  rw [← h, List.getElem?_set_self hlt] at hk
  exact hab (Option.some.inj hk)

/-- Bytes with their CRC32 behind them, with one byte replaced, are no bytes with their CRC32: a change among the bytes
changes the CRC32 (`crc32_set_ne`), and a change of the CRC32 leaves the bytes. -/
theorem append_crc32_set_ne {x y : List Byte} {k : Nat} {a b : Byte} (hlen : x.length = y.length)
    (hk : (x ++ wordBytes (crc32 x))[k]? = some b) (hab : a ≠ b) :
    (x ++ wordBytes (crc32 x)).set k a ≠ y ++ wordBytes (crc32 y) := by
  intro h
  rw [List.set_append] at h
  split at h
  next hbody =>
    obtain ⟨rfl, hcrc⟩ := List.append_inj h (by simpa using hlen)
    rw [List.getElem?_append_left hbody] at hk
    exact crc32_set_ne hk hab (wordBytes_injective hcrc).symm
  next hcrc =>
    obtain ⟨rfl, hsame⟩ := List.append_inj h hlen
    rw [List.getElem?_append_right (Nat.le_of_not_lt hcrc)] at hk
    exact set_ne_self hk hab hsame

/-- The same for whole records of one LENGTH. -/
theorem recordBytes_set_ne {l ty ty' : Word} {p p' : List Byte} {k : Nat} {a b : Byte} (hlen : p.length = p'.length)
    (hk : (recordBytes l ty p (crc32 (wordBytes ty ++ p)))[k]? = some b) (hab : a ≠ b) :
    (recordBytes l ty p (crc32 (wordBytes ty ++ p))).set k a ≠ recordBytes l ty' p' (crc32 (wordBytes ty' ++ p')) := by
  simp only [recordBytes, List.append_assoc (wordBytes l)] at hk ⊢
  intro h
  rw [List.set_append] at h
  split at h
  next hlength =>
    rw [List.getElem?_append_left hlength] at hk
    exact set_ne_self hk hab (List.append_inj h (by simp)).1
  next hrest =>
    rw [List.getElem?_append_right (Nat.le_of_not_lt hrest)] at hk
    exact append_crc32_set_ne (by simpa using hlen) hk hab (List.append_inj h rfl).2

/-! ### CHUNK_PARSE of a written range -/

section
variable {s : State}

theorem exec_chunkParse_of_error {e : CmdError} (hin : s.argInRange)
    (hparse : s.parseChunk s.argStart s.argCount = .error (.error e)) :
    exec .chunkParse s = .next (afterError e s) := by
  simp only [exec, execChunkParse, hin, not_true_eq_false, if_false, hparse, raise_eq]

/-- On a range with every cell written CHUNK_PARSE does not fault: the range holds a good record, or an error is
reported. -/
theorem exec_chunkParse_of_written {bs : List Byte} (hin : s.argInRange) (hlen : bs.length = s.argCount)
    (hholds : Holds s.ibuf s.argStart bs) :
    (∃ l ty p, p.length = l.toNat ∧ bs = recordBytes l ty p (crc32 (wordBytes ty ++ p))) ∨
      ∃ e ∈ [.lengthMismatch, .invalidChunkType, .invalidCrc], exec .chunkParse s = .next (afterError e s) := by
  cases hparse : s.parseChunk s.argStart s.argCount with
  | ok r =>
    obtain ⟨l, ty, _, p, hcount, hp, hrecord, -, rfl, -⟩ := (parseChunk_ok_iff hin).mp hparse
    exact .inl ⟨l, ty, p, hp, hholds.eq hrecord (by simp; omega)⟩
  | error x =>
    refine .inr ?_
    obtain rfl | rfl | rfl | rfl := parseChunk_error hin hparse
    · exact absurd (hlen ▸ parseChunk_fault hin hparse) (holds_not_unwritten hholds)
    all_goals exact ⟨_, by simp, exec_chunkParse_of_error hin hparse⟩

end

/-- Settles O36: the flipped range is written, and it holds no good record. -/
theorem parseRejectsEverySingleBitFlip : Obligations.ParseRejectsEverySingleBitFlip := by
  unfold Obligations.ParseRejectsEverySingleBitFlip
  intro s t k j b hexec he hk hj hb
  cases exec_success hexec he with
  | chunkParse r hin hparse =>
    obtain ⟨l, ty, _, p, hcount, hp, hrecord, -, rfl, -⟩ := (parseChunk_ok_iff hin).mp hparse
    have hlen : (recordBytes l ty p (crc32 (wordBytes ty ++ p))).length = s.argLen.toNat := by
      rw [recordBytes_length, hp, Nat.add_comm]
      exact hcount.symm
    have hbyte := (hrecord k (hk.trans_eq hlen.symm)).symm.trans hb
    have hflipped := hrecord.memWrite_set (hk.trans_eq hlen.symm) (b ^^^ (1#8 <<< j))
    obtain ⟨l', ty', p', hp', hsame⟩ | herror := exec_chunkParse_of_written
      (s := { s with ibuf := memWrite s.ibuf (s.argAddr.toNat + k) (b ^^^ (1#8 <<< j)) })
      hin (List.length_set.trans hlen) hflipped
    · have hpayload : p.length = p'.length := by simpa using congrArg List.length hsame
      obtain rfl : l = l' := BitVec.eq_of_toNat_eq (by omega)
      exact absurd hsame (recordBytes_set_ne hpayload hbyte (flip_ne b hj))
    · exact herror

end Sys2Proof.Machine
end

section
/-!
PROOFS. The chunk framer's commands (R141 to R145): the outcome of each check in the rule's order, and the chunk round trip
(R146).
-/

namespace Sys2Proof.Machine

/-! ### CHUNK_SET -/

section
variable {s t : State}

theorem exec_chunkSet_of_noTag (htag : s.tagValid = false) : exec .chunkSet s = .next (afterError .noTag s) :=
  if_pos htag

/-- The tag is checked before the range (R141). -/
theorem exec_chunkSet_of_outside (htag : s.tagValid = true)
    (hout : s.cfg.ibufSize < s.argAddr.toNat + s.argLen.toNat) :
    exec .chunkSet s = .next (afterError .rangeError s) := by
  have hrange : ¬ s.argInRange := Nat.not_le.mpr hout
  simp [exec, execChunkSet, htag, hrange, raise_eq]

/-- A tag command leaves the descriptor: its type is a copy of TAG (R148). -/
theorem exec_tag_keeps_descriptor {i : Instr} (hi : i ∈ [.tagConstruct, .tagParse]) (h : exec i s = .next t) :
    t.chType = s.chType ∧ t.chPoff = s.chPoff ∧ t.chLen = s.chLen ∧ t.chValid = s.chValid := by
  obtain ⟨v, rfl⟩ | ⟨e, rfl⟩ := exec_tag_next_cases hi h
  · exact ⟨rfl, rfl, rfl, rfl⟩
  · exact ⟨rfl, rfl, rfl, rfl⟩

end

/-- Settles O31: the two checks in their order, what is left when both pass, and that a tag command writes no descriptor. -/
theorem chunkSetRule : Obligations.ChunkSetRule := by
  unfold Obligations.ChunkSetRule
  exact ⟨decode_encode .chunkSet, fun s => exec_chunkSet_of_noTag, fun s => exec_chunkSet_of_outside,
    fun s htag hin => (CommandSuccess.chunkSet htag hin).exec_eq, fun i s t => exec_tag_keeps_descriptor⟩

/-! ### CHUNK_CRC -/

section
variable {s : State}

theorem readPayload_of_unwritten (hin : s.chPoff.toNat + s.chLen.toNat ≤ s.cfg.ibufSize)
    (hunwritten : Unwritten s.ibuf s.chPoff.toNat s.chLen.toNat) : s.readPayload = .error .unwrittenRead :=
  memRead_of_unwritten hin hunwritten

theorem exec_chunkCrc_of_noChunk (hchunk : s.chValid = false) : exec .chunkCrc s = .next (afterError .noChunk s) :=
  if_pos hchunk

theorem exec_chunkCrc_of_unwritten (hchunk : s.chValid = true)
    (hin : s.chPoff.toNat + s.chLen.toNat ≤ s.cfg.ibufSize)
    (hunwritten : Unwritten s.ibuf s.chPoff.toNat s.chLen.toNat) : exec .chunkCrc s = .fault .unwrittenRead := by
  simp [exec, execChunkCrc, hchunk, readPayload_of_unwritten hin hunwritten]

end

/-- Settles O32: no chunk, a written payload, or an unwritten byte of it. -/
theorem chunkCrcRule : Obligations.ChunkCrcRule := by
  unfold Obligations.ChunkCrcRule
  exact ⟨decode_encode .chunkCrc, fun s => exec_chunkCrc_of_noChunk, fun s p => exec_chunkCrc_of_holds,
    fun s => exec_chunkCrc_of_unwritten⟩

/-! ### Output -/

section
variable {s : State} {bs : List Byte}

/-- Output that fits advances OUT_PTR without wrapping (R6, R10). -/
theorem toNat_outPtr_emit (hcfg : s.cfg.Wf) (hfit : s.outFits bs.length) :
    (s.emit bs).outPtr.toNat = s.outPtr.toNat + bs.length := by
  obtain ⟨-, -, -, hmax⟩ := hcfg
  rw [State.emit_outPtr, BitVec.toNat_ofNat, Nat.mod_eq_of_lt (by omega)]

theorem emit_holds (s : State) (bs : List Byte) : Holds (s.emit bs).obuf s.outPtr.toNat bs :=
  memWriteBytes_holds _ _ _

theorem memLookup_emit_outside {x : Nat} (hx : x < s.outPtr.toNat ∨ s.outPtr.toNat + bs.length ≤ x) :
    memLookup (s.emit bs).obuf x = memLookup s.obuf x :=
  memLookup_memWriteBytes_outside _ _ _ _ hx

end

/-! ### CHUNK_SERIALIZE -/

section
variable {s : State} {p : List Byte}

/-- The record of the descriptor's chunk with payload `p` (R143). -/
def State.descriptorRecord (s : State) (p : List Byte) : List Byte :=
  recordBytes s.chLen s.chType p (crc32 (wordBytes s.chType ++ p))

theorem State.descriptorRecord_length (hlen : p.length = s.chLen.toNat) :
    (s.descriptorRecord p).length = 12 + s.chLen.toNat := by
  rw [State.descriptorRecord, recordBytes_length, hlen]

theorem exec_chunkSerialize_of_noChunk (hchunk : s.chValid = false) :
    exec .chunkSerialize s = .next (afterError .noChunk s) :=
  if_pos hchunk

/-- The room in OBUF is checked before the payload is read (R143). -/
theorem exec_chunkSerialize_of_overflow (hchunk : s.chValid = true)
    (hfull : s.cfg.obufSize < s.outPtr.toNat + 12 + s.chLen.toNat) :
    exec .chunkSerialize s = .next (afterError .outputOverflow s) := by
  have hfits : ¬ s.outFits (12 + s.chLen.toNat) := by unfold State.outFits; omega
  simp [exec, execChunkSerialize, hchunk, hfits, raise_eq]

theorem exec_chunkSerialize_of_unwritten (hchunk : s.chValid = true)
    (hroom : s.outPtr.toNat + 12 + s.chLen.toNat ≤ s.cfg.obufSize)
    (hin : s.chPoff.toNat + s.chLen.toNat ≤ s.cfg.ibufSize)
    (hunwritten : Unwritten s.ibuf s.chPoff.toNat s.chLen.toNat) :
    exec .chunkSerialize s = .fault .unwrittenRead := by
  have hfits : s.outFits (12 + s.chLen.toNat) := by unfold State.outFits; omega
  simp [exec, execChunkSerialize, hchunk, hfits, readPayload_of_unwritten hin hunwritten]

/-- CHUNK_SERIALIZE (R143) of a descriptor whose payload IBUF holds. -/
theorem exec_chunkSerialize_of_holds (hchunk : s.chValid = true)
    (hroom : s.outPtr.toNat + 12 + s.chLen.toNat ≤ s.cfg.obufSize)
    (hin : s.chPoff.toNat + s.chLen.toNat ≤ s.cfg.ibufSize) (hlen : p.length = s.chLen.toNat)
    (hp : Holds s.ibuf s.chPoff.toNat p) :
    exec .chunkSerialize s =
      .next (afterSuccess { s.emit (s.descriptorRecord p) with chCrc := crc32 (wordBytes s.chType ++ p) }) :=
  (CommandSuccess.chunkSerialize p hchunk (by unfold State.outFits; omega) (memRead_of_holds (.inr hin) hlen hp)).exec_eq

end

/-- Settles O33, check by check in the order of R143; what a success writes is the output of one record. -/
theorem chunkSerializeRule : Obligations.ChunkSerializeRule := by
  unfold Obligations.ChunkSerializeRule
  refine ⟨decode_encode .chunkSerialize, fun s => exec_chunkSerialize_of_noChunk,
    fun s => exec_chunkSerialize_of_overflow, fun s p hcfg hchunk hroom hin hlen hp => ?_,
    fun s => exec_chunkSerialize_of_unwritten⟩
  have hsize := State.descriptorRecord_length hlen
  have hfits : s.outFits (s.descriptorRecord p).length := by unfold State.outFits; omega
  refine ⟨_, exec_chunkSerialize_of_holds hchunk hroom hin hlen hp, rfl, ?_, emit_holds s _, fun x hx => ?_⟩
  · exact (toNat_outPtr_emit hcfg hfits).trans (by omega)
  · exact memLookup_emit_outside (by omega)

/-! ### What the parser's range holds -/

theorem holds_recordBytes_iff {m : Memory} {a : Nat} {l ty w : Word} {p : List Byte} :
    Holds m a (recordBytes l ty p w) ↔ Holds m a (wordBytes l) ∧ Holds m (a + 4) (wordBytes ty)
      ∧ Holds m (a + 8) p ∧ Holds m (a + 8 + p.length) (wordBytes w) := by
  simp only [recordBytes, holds_append_iff, List.length_append, wordBytes_length, and_assoc, Nat.add_assoc, Nat.reduceAdd]

/-- An unwritten cell of a range whose first cells are written lies behind them. -/
theorem Unwritten.after_holds {m : Memory} {a k : Nat} {bs : List Byte} (h : Unwritten m a (bs.length + k))
    (hbs : Holds m a bs) : Unwritten m (a + bs.length) k := by
  obtain ⟨i, hi, hnone⟩ := h
  have hi' : bs.length ≤ i := by
    by_contra hlt
    exact holds_not_unwritten hbs ⟨i, Nat.lt_of_not_le hlt, hnone⟩
  exact ⟨i - bs.length, by omega, by rwa [show a + bs.length + (i - bs.length) = a + i by omega]⟩

/-- Cells that read alike hold the same bytes. -/
theorem Holds.congr {m m' : Memory} {a : Nat} {bs : List Byte} (h : Holds m a bs)
    (hsame : ∀ k, k < bs.length → memLookup m' (a + k) = memLookup m (a + k)) : Holds m' a bs :=
  fun k hk => (hsame k hk).trans (h k hk)

/-! ### The parser's stops -/

section
variable {s : State} {a n l : Nat}

theorem parseChunk_of_short (hn : n < 4) : s.parseChunk a n = .error (.error .lengthMismatch) :=
  if_pos hn

/-- LENGTH plus 12 is over the naturals, so no LENGTH wraps to the span (R145). -/
theorem parseChunk_of_length_ne {v : Word} (hin : a + n ≤ s.cfg.ibufSize) (hn : 4 ≤ n)
    (hlength : Holds s.ibuf a (wordBytes v)) (hne : n ≠ v.toNat + 12) :
    s.parseChunk a n = .error (.error .lengthMismatch) := by
  simp [State.parseChunk, Nat.not_lt.mpr hn, memRead4_of_holds (by omega) hlength, hne]

theorem parseChunk_of_unwritten_length (hin : a + n ≤ s.cfg.ibufSize) (hn : 4 ≤ n) (hunwritten : Unwritten s.ibuf a 4) :
    s.parseChunk a n = .error (.fault .unwrittenRead) := by
  simp [State.parseChunk, Nat.not_lt.mpr hn, memRead4_of_unwritten (by omega) hunwritten]

section
variable (hin : a + 12 + l ≤ s.cfg.ibufSize)
include hin

theorem parseBody_of_unwritten_type (hunwritten : Unwritten s.ibuf (a + 4) 4) :
    s.parseBody a l = .error (.fault .unwrittenRead) := by
  simp [State.parseBody, memRead4_of_unwritten (by omega) hunwritten]

variable {ty : Word} (htype : Holds s.ibuf (a + 4) (wordBytes ty))
include htype

theorem parseBody_of_not_letters (hother : ¬ LetterTag ty) :
    s.parseBody a l = .error (.error .invalidChunkType) := by
  have hletters : letters4 (bytesBe32 ty) = false := by rwa [← Bool.not_eq_true, letters4_bytesBe32]
  simp [State.parseBody, memRead4_of_holds (by omega) htype, hletters]

variable (hletters : LetterTag ty)
include hletters

theorem parseBody_of_crc_ne {p : List Byte} {w : Word} (hlen : p.length = l) (hp : Holds s.ibuf (a + 8) p)
    (hw : Holds s.ibuf (a + 8 + l) (wordBytes w)) (hne : w ≠ crc32 (wordBytes ty ++ p)) :
    s.parseBody a l = .error (.error .invalidCrc) := by
  have hletters4 := (letters4_bytesBe32 ty).mpr hletters
  simp [State.parseBody, memRead4_of_holds (by omega) htype, hletters4, memRead_of_holds (.inr (by omega)) hlen hp,
    memRead4_of_holds (by omega) hw, chunkCrc_eq, hne]

/-- The payload is read before the CRC, and either read can find the unwritten cell. -/
theorem parseBody_of_unwritten_rest (hunwritten : Unwritten s.ibuf (a + 8) (l + 4)) :
    s.parseBody a l = .error (.fault .unwrittenRead) := by
  have htag := memRead4_of_holds (by omega) htype
  have hletters4 := (letters4_bytesBe32 ty).mpr hletters
  obtain ⟨p, hread, rfl, hp⟩ | ⟨hread, -⟩ := memRead_inside_cases s (show a + 8 + l ≤ _ by omega)
  · have hcrc := memRead4_of_unwritten (by omega) (hunwritten.after_holds hp)
    simp [State.parseBody, htag, hletters4, hread, hcrc]
  · simp [State.parseBody, htag, hletters4, hread]

end

end

/-! ### CHUNK_PARSE -/

section
variable {s : State}

theorem exec_chunkParse_of_outside (hout : s.cfg.ibufSize < s.argAddr.toNat + s.argLen.toNat) :
    exec .chunkParse s = .next (afterError .rangeError s) :=
  if_pos (Nat.not_le.mpr hout)

theorem exec_chunkParse_of_fault {f : Fault} (hin : s.argInRange)
    (hparse : s.parseChunk s.argStart s.argCount = .error (.fault f)) : exec .chunkParse s = .fault f := by
  simp [exec, execChunkParse, hin, hparse]

/-- CHUNK_PARSE (R144) of a range that holds a record of letters with its CRC. -/
theorem exec_chunkParse_of_holds {l ty w : Word} {p : List Byte} (hin : s.argInRange)
    (hcount : s.argCount = l.toNat + 12) (hlen : p.length = l.toNat)
    (hrecord : Holds s.ibuf s.argStart (recordBytes l ty p w)) (hletters : LetterTag ty)
    (hcrc : w = crc32 (wordBytes ty ++ p)) :
    exec .chunkParse s =
      .next (afterSuccess { s with chType := ty, chPoff := s.argAddr + 8, chLen := l, chCrc := w, chValid := true }) := by
  have hoffset : BitVec.ofNat 32 (s.argStart + 8) = s.argAddr + 8 := by simp [State.argStart, BitVec.ofNat_add]
  have hparse := (parseChunk_ok_iff hin).mpr ⟨l, ty, w, p, hcount, hlen, hrecord, hletters, hcrc, rfl⟩
  rw [hoffset] at hparse
  exact (CommandSuccess.chunkParse _ hin hparse).exec_eq

end

/-- Settles O34, check by check in the order of R144 and R145, with the read that each check needs. -/
theorem chunkParseRule : Obligations.ChunkParseRule := by
  unfold Obligations.ChunkParseRule
  refine ⟨decode_encode .chunkParse, fun s => exec_chunkParse_of_outside, fun s hin hshort => ?_,
    fun s l hin hcount hl hne => ?_, fun s l ty hin hcount hfields hother => ?_,
    fun s l ty w p hin hcount hlen hrecord hletters hne => ?_,
    fun s l ty w p hin hcount hlen hrecord => exec_chunkParse_of_holds hin hcount hlen hrecord,
    fun s hin hcount hun => ?_, fun s l hin hcount hl hun => ?_, fun s l ty hin hcount hfields hletters hun => ?_⟩
  · exact exec_chunkParse_of_error hin (parseChunk_of_short hshort)
  · exact exec_chunkParse_of_error hin (parseChunk_of_length_ne hin hcount hl hne)
  · obtain ⟨hl, hty⟩ := holds_append_iff.mp hfields
    exact exec_chunkParse_of_error hin
      ((parseChunk_of_length (by omega) hl hcount).trans (parseBody_of_not_letters (by omega) hty hother))
  · obtain ⟨hl, hty, hp, hw⟩ := holds_recordBytes_iff.mp hrecord
    rw [hlen] at hw
    exact exec_chunkParse_of_error hin ((parseChunk_of_length (by omega) hl hcount).trans
      (parseBody_of_crc_ne (by omega) hty hletters hlen hp hw hne))
  · exact exec_chunkParse_of_fault hin (parseChunk_of_unwritten_length hin hcount hun)
  · exact exec_chunkParse_of_fault hin
      ((parseChunk_of_length (by omega) hl hcount).trans (parseBody_of_unwritten_type (by omega) hun))
  · obtain ⟨hl, hty⟩ := holds_append_iff.mp hfields
    exact exec_chunkParse_of_fault hin ((parseChunk_of_length (by omega) hl hcount).trans
      (parseBody_of_unwritten_rest (by omega) hty hletters hun))

/-! ### The round trip -/

/-- A CHUNK_PARSE that succeeds has found a whole record with its CRC in its range. -/
theorem exec_chunkParse_success {s t : State} (h : exec .chunkParse s = .next t) (he : t.err = none) :
    ∃ p, s.argInRange ∧ s.argCount = t.chLen.toNat + 12 ∧ p.length = t.chLen.toNat
      ∧ t.chPoff = BitVec.ofNat 32 (s.argStart + 8) ∧ Holds s.ibuf s.argStart (t.descriptorRecord p) := by
  cases exec_success h he with
  | chunkParse r hin hparse =>
    obtain ⟨l, ty, _, p, hcount, hlen, hrecord, -, rfl, rfl⟩ := (parseChunk_ok_iff hin).mp hparse
    exact ⟨p, hin, hcount, hlen, rfl, hrecord⟩

/-- Settles O35: the parser accepts only a record with its own CRC, and CHUNK_SERIALIZE writes that record. -/
theorem chunkRoundTrip : Obligations.ChunkRoundTrip := by
  unfold Obligations.ChunkRoundTrip
  intro s t u hcfg hparse he hsizes hchunk htype hpoff hlength hsame hroom
  obtain ⟨p, hin, hcount, hlen, hoffset, hrecord⟩ := exec_chunkParse_success hparse he
  rw [← hlength] at hcount hlen
  rw [State.descriptorRecord, ← htype, ← hlength, ← State.descriptorRecord] at hrecord
  unfold State.argInRange State.argCount State.argStart at *
  have hsize : (u.descriptorRecord p).length = s.argLen.toNat := by
    rw [State.descriptorRecord_length hlen, hcount, Nat.add_comm]
  obtain ⟨-, -, hpayload, -⟩ := holds_recordBytes_iff.mp (hrecord.congr (m' := u.ibuf) (by rwa [hsize]))
  have hstart : u.chPoff.toNat = s.argAddr.toNat + 8 := by
    rw [hpoff, hoffset, toNat_ofNat_of_inside hcfg (by omega)]
  rw [← hstart] at hpayload
  refine ⟨_, exec_chunkSerialize_of_holds hchunk (by omega) (by rw [hsizes]; omega) hlen hpayload, rfl, ?_,
    fun k hk => ⟨(u.descriptorRecord p)[k], ?_, ?_⟩⟩
  · rw [← hsize]
    exact toNat_outPtr_emit (hsizes ▸ hcfg) (by rwa [hsize])
  · exact (emit_holds u _ k (hk.trans_eq hsize.symm)).trans (List.getElem?_eq_getElem _)
  · exact (hrecord k (hk.trans_eq hsize.symm)).trans (List.getElem?_eq_getElem _)

end Sys2Proof.Machine
end

section
/-!
PROOFS. What the chunk framer's commands and SIG_EMIT leave unchanged (R141 to R144, R173), by the ways in which a command
completes.
-/

namespace Sys2Proof.Machine

section
variable {s t : State}

/-- No command but STREAM_NEXT changes more than STATUS when it reports an error (R12). -/
theorem exec_next_cases_of_ne {i : Instr} (h : exec i s = .next t) (hi : i ≠ .streamNext) :
    CommandSuccess s i t ∨ ∃ e, t = afterError e s := by
  obtain hsuccess | herror | ⟨e, hnext, -, -⟩ := exec_next_cases h
  · exact .inl hsuccess
  · exact .inr herror
  · exact absurd hnext hi

theorem exec_chunkSet_frame (h : exec .chunkSet s = .next t) :
    t = { s with chType := t.chType, chPoff := t.chPoff, chLen := t.chLen, chValid := t.chValid, err := t.err,
                 endFlag := false, pending := none } := by
  obtain hsuccess | ⟨e, rfl⟩ := exec_next_cases_of_ne h (by decide)
  · cases hsuccess with
    | chunkSet => rfl
  · rfl

theorem exec_chunkCrc_frame (h : exec .chunkCrc s = .next t) :
    t = { s with chCrc := t.chCrc, err := t.err, endFlag := false, pending := none } := by
  obtain hsuccess | ⟨e, rfl⟩ := exec_next_cases_of_ne h (by decide)
  · cases hsuccess with
    | chunkCrc => rfl
  · rfl

theorem exec_chunkParse_frame (h : exec .chunkParse s = .next t) :
    t = { s with chType := t.chType, chPoff := t.chPoff, chLen := t.chLen, chValid := t.chValid, chCrc := t.chCrc,
                 err := t.err, endFlag := false, pending := none } := by
  obtain hsuccess | ⟨e, rfl⟩ := exec_next_cases_of_ne h (by decide)
  · cases hsuccess with
    | chunkParse => rfl
  · rfl

/-- Only the two output commands write OBUF (R38). -/
theorem exec_obuf {i : Instr} (hi : i ∉ [.sigEmit, .chunkSerialize]) (h : exec i s = .next t) : t.obuf = s.obuf := by
  obtain hsuccess | ⟨e, rfl⟩ | ⟨e, -, -, rfl⟩ := exec_next_cases h
  · cases hsuccess with
    | sigEmit | chunkSerialize => simp at hi
    | _ => rfl
  · rfl
  · rfl

theorem exec_sigEmit_frame (h : exec .sigEmit s = .next t) :
    t = { s with obuf := t.obuf, outPtr := t.outPtr, err := t.err, endFlag := false, pending := none }
      ∧ ∀ x, (x < s.outPtr.toNat ∨ s.outPtr.toNat + 8 ≤ x) → memLookup t.obuf x = memLookup s.obuf x := by
  obtain hsuccess | ⟨e, rfl⟩ := exec_next_cases_of_ne h (by decide)
  · cases hsuccess with
    | sigEmit => exact ⟨rfl, fun x => memLookup_emit_outside (bs := signature)⟩
  · exact ⟨rfl, fun x _ => rfl⟩

theorem exec_chunkSerialize_frame (h : exec .chunkSerialize s = .next t) :
    t = { s with obuf := t.obuf, outPtr := t.outPtr, chCrc := t.chCrc, err := t.err, endFlag := false, pending := none }
      ∧ ∀ x, (x < s.outPtr.toNat ∨ s.outPtr.toNat + 12 + s.chLen.toNat ≤ x) →
        memLookup t.obuf x = memLookup s.obuf x := by
  obtain hsuccess | ⟨e, rfl⟩ := exec_next_cases_of_ne h (by decide)
  · cases hsuccess with
    | chunkSerialize p hchunk hfit hread =>
      have hlen : p.length = s.chLen.toNat := (memRead_ok_iff.mp hread).1
      exact ⟨rfl, fun x hx => memLookup_emit_outside (by rwa [chunkBytes_length, hlen, ← Nat.add_assoc])⟩
  · exact ⟨rfl, fun x _ => rfl⟩

end

/-- Settles O47: the frame of each command, and that none of the three writes a buffer. -/
theorem chunkUnitFrame : Obligations.ChunkUnitFrame := by
  unfold Obligations.ChunkUnitFrame
  refine ⟨fun s t => exec_chunkSet_frame, fun s t => exec_chunkCrc_frame, fun s t => exec_chunkParse_frame,
    fun i s t hi hexec x => ?_⟩
  have hquiet : i ∉ [.sigEmit, .chunkSerialize] := by
    simp only [List.mem_cons, List.not_mem_nil, or_false] at hi
    obtain rfl | rfl | rfl := hi <;> decide
  rw [(exec_engineKeeps hexec).ibuf, exec_obuf hquiet hexec]
  exact ⟨rfl, rfl⟩

/-- Settles O48: each writes OBUF by one output from OUT_PTR, and no command writes IBUF. -/
theorem outputFrame : Obligations.OutputFrame := by
  unfold Obligations.OutputFrame
  refine ⟨fun s t => exec_sigEmit_frame, fun s t => exec_chunkSerialize_frame, fun i s t _ hexec x => ?_⟩
  rw [(exec_engineKeeps hexec).ibuf]

end Sys2Proof.Machine
end

section
/-!
PROOFS. STREAM_OPEN and STREAM_NEXT (R171, R172, R177), the outcome of each check in the rule's order, and SIG_EMIT (R173).
-/

namespace Sys2Proof.Machine

/-! ### STREAM_OPEN -/

section
variable {s : State}

theorem exec_streamOpen_of_outside (hout : s.cfg.ibufSize < s.argAddr.toNat + s.argLen.toNat) :
    exec .streamOpen s = .next (afterError .rangeError s) :=
  if_pos (Nat.not_le.mpr hout)

section
variable (hin : s.argInRange)
include hin

/-- The count is checked before a byte is read (R171). -/
theorem exec_streamOpen_of_short (hcount : s.argCount < 8) :
    exec .streamOpen s = .next (afterError .invalidSignature s) := by
  simp only [exec, execStreamOpen, hin, not_true_eq_false, if_false, hcount, if_true, raise_eq]

variable (hcount : 8 ≤ s.argCount)
include hcount

theorem exec_streamOpen_of_unwritten (hunwritten : Unwritten s.ibuf s.argStart 8) :
    exec .streamOpen s = .fault .unwrittenRead := by
  have hread := memRead_of_unwritten ((Nat.add_le_add_left hcount _).trans hin) hunwritten
  simp only [exec, execStreamOpen, hin, not_true_eq_false, if_false, Nat.not_lt.mpr hcount, hread]

theorem exec_streamOpen_of_other {bs : List Byte} (hlen : bs.length = 8) (hbytes : Holds s.ibuf s.argStart bs)
    (hother : bs ≠ signature) : exec .streamOpen s = .next (afterError .invalidSignature s) := by
  have hread := memRead_of_holds (.inr ((Nat.add_le_add_left hcount _).trans hin)) hlen hbytes
  simp only [exec, execStreamOpen, hin, not_true_eq_false, if_false, Nat.not_lt.mpr hcount, hread, hother, ne_eq,
    not_false_eq_true, if_true, raise_eq]

theorem exec_streamOpen_of_signature (hbytes : Holds s.ibuf s.argStart signature) :
    exec .streamOpen s =
      .next (afterSuccess
        { s with stCur := s.argAddr + 8, stEnd := s.argAddr + s.argLen, stCount := 0, stActive := true }) := by
  have hread := memRead_of_holds (.inr ((Nat.add_le_add_left hcount _).trans hin)) rfl hbytes
  have hcur : BitVec.ofNat 32 (s.argStart + 8) = s.argAddr + 8 := by simp [State.argStart, BitVec.ofNat_add]
  have hend : BitVec.ofNat 32 (s.argStart + s.argCount) = s.argAddr + s.argLen := by
    simp [State.argStart, State.argCount, BitVec.ofNat_add]
  rw [← hcur, ← hend]
  exact (CommandSuccess.streamOpen hin hcount hread).exec_eq

end

end

/-- Settles O38, check by check in the order of R171; an error state is the state before with STATUS written. -/
theorem streamOpenRule : Obligations.StreamOpenRule := by
  unfold Obligations.StreamOpenRule
  exact ⟨decode_encode .streamOpen, fun s => exec_streamOpen_of_outside, fun s => exec_streamOpen_of_short,
    fun s => exec_streamOpen_of_unwritten, fun s bs hin hcount => exec_streamOpen_of_other hin hcount,
    fun s => exec_streamOpen_of_signature⟩

/-! ### SIG_EMIT -/

theorem exec_sigEmit_of_overflow {s : State} (hfull : s.cfg.obufSize < s.outPtr.toNat + 8) :
    exec .sigEmit s = .next (afterError .outputOverflow s) :=
  if_neg (Nat.not_le.mpr hfull)

/-- Settles O40: a success is one output of the signature, and only the room in OBUF decides. -/
theorem sigEmitRule : Obligations.SigEmitRule := by
  unfold Obligations.SigEmitRule
  refine ⟨decode_encode .sigEmit, fun s => exec_sigEmit_of_overflow, fun s hcfg hroom => ?_⟩
  exact ⟨_, (CommandSuccess.sigEmit hroom).exec_eq, rfl, toNat_outPtr_emit hcfg (bs := signature) hroom,
    emit_holds s signature, fun x => memLookup_emit_outside (bs := signature)⟩

/-! ### STREAM_NEXT -/

section
variable {s : State}

theorem exec_streamNext_of_closed (hclosed : s.stActive = false) :
    exec .streamNext s = .next (afterError .streamNotOpen s) :=
  if_pos hclosed

/-- The rest of an open stream, from its bounds. -/
theorem le_streamRest {n : Nat} (hn : s.stCur.toNat + n ≤ s.stEnd.toNat) : n ≤ s.streamRest :=
  Nat.le_sub_of_add_le' hn

variable (h : StateInv s) (hopen : s.stActive = true)
include h hopen

theorem exec_streamNext_of_short (hrest : s.stCur ≠ s.stEnd) (hshort : s.stEnd.toNat < s.stCur.toNat + 4) :
    exec .streamNext s = .next (afterError .lengthMismatch { s with stActive := false }) := by
  have hne : s.streamRest ≠ 0 := by rwa [ne_eq, streamRest_eq_zero_iff, h.stEnd_le_stCur_iff hopen]
  have hlt : s.streamRest < 4 := by unfold State.streamRest; omega
  simp [exec, execStreamNext, hopen, hne, hlt, abort_eq]

/-! With 4 bytes left LENGTH is read. -/

section
variable (hrest : s.stCur.toNat + 4 ≤ s.stEnd.toNat)
include hrest

theorem exec_streamNext_of_unwritten_length (hunwritten : Unwritten s.ibuf s.stCur.toNat 4) :
    exec .streamNext s = .fault .unwrittenRead := by
  have hrest := le_streamRest hrest
  have hread := memRead4_of_unwritten (h.streamRange_inside hopen hrest) hunwritten
  simp [exec, execStreamNext, hopen, show s.streamRest ≠ 0 by omega, Nat.not_lt.mpr hrest, hread]

/-- LENGTH plus 12 is over the naturals, so no LENGTH wraps to fit (R172). -/
theorem exec_streamNext_of_overrun {l : Word} (hlength : Holds s.ibuf s.stCur.toNat (wordBytes l))
    (hover : s.stEnd.toNat < s.stCur.toNat + 12 + l.toNat) :
    exec .streamNext s = .next (afterError .lengthMismatch { s with stActive := false }) := by
  have hover : s.streamRest < 12 + l.toNat := by unfold State.streamRest; omega
  have hrest := le_streamRest hrest
  have hread := memRead4_of_holds (h.streamRange_inside hopen hrest) hlength
  simp [exec, execStreamNext, hopen, show s.streamRest ≠ 0 by omega, Nat.not_lt.mpr hrest, hread, hover, abort_eq]

end

/-! With room for the record, its body is parsed. -/

section
variable {l : Word} (hfit : s.stCur.toNat + 12 + l.toNat ≤ s.stEnd.toNat)
include hfit

theorem StateInv.streamRecord_inside : s.stCur.toNat + 12 + l.toNat ≤ s.cfg.ibufSize :=
  hfit.trans (h.stream hopen).2

/-- The cursor and the count do not wrap where they pass over a record of the stream (R172). -/
theorem StateInv.toNat_advanced :
    (s.stCur + 12 + l).toNat = s.stCur.toNat + 12 + l.toNat ∧ (s.stCount + 1).toNat = s.stCount.toNat + 1 := by
  obtain ⟨-, hmax, -, -⟩ := h.cfg
  have hin := h.streamRecord_inside hopen hfit
  have hcount := h.count hopen
  constructor <;> bv_omega

section
variable (hlength : Holds s.ibuf s.stCur.toNat (wordBytes l))
include hlength

/-- The checks before the record's body pass, and `parse_chunk` goes on to the body (R172, R145). -/
theorem streamRecord_checks_pass :
    s.streamRest ≠ 0 ∧ 4 ≤ s.streamRest ∧ 12 + l.toNat ≤ s.streamRest ∧ s.memRead4 s.stCur.toNat = .ok (bytesBe32 l)
      ∧ s.parseChunk s.stCur.toNat (12 + l.toNat) = s.parseBody s.stCur.toNat l.toNat := by
  have hin := h.streamRecord_inside hopen hfit
  have hrest : 12 + l.toNat ≤ s.streamRest := le_streamRest (by omega)
  exact ⟨by omega, by omega, hrest, memRead4_of_holds (by omega) hlength,
    parseChunk_of_length (by omega) hlength (Nat.add_comm 12 l.toNat)⟩

/-- An error of the record's body closes the stream (R177). -/
theorem exec_streamNext_of_body_error {e : CmdError} (hbody : s.parseBody s.stCur.toNat l.toNat = .error (.error e)) :
    exec .streamNext s = .next (afterError e { s with stActive := false }) := by
  obtain ⟨hne, hrest, hroom, hread, hparse⟩ := streamRecord_checks_pass h hopen hfit hlength
  simp [exec, execStreamNext, hopen, hne, Nat.not_lt.mpr hrest, hread, Nat.not_lt.mpr hroom, hparse, hbody, abort_eq]

theorem exec_streamNext_of_body_fault {f : Fault} (hbody : s.parseBody s.stCur.toNat l.toNat = .error (.fault f)) :
    exec .streamNext s = .fault f := by
  obtain ⟨hne, hrest, hroom, hread, hparse⟩ := streamRecord_checks_pass h hopen hfit hlength
  simp [exec, execStreamNext, hopen, hne, Nat.not_lt.mpr hrest, hread, Nat.not_lt.mpr hroom, hparse, hbody]

end

/-- STREAM_NEXT (R172) at a record of letters with its CRC delivers the chunk. -/
theorem exec_streamNext_of_record {ty w : Word} {p : List Byte} (hlen : p.length = l.toNat)
    (hrecord : Holds s.ibuf s.stCur.toNat (recordBytes l ty p w)) (hletters : LetterTag ty)
    (hcrc : w = crc32 (wordBytes ty ++ p)) :
    exec .streamNext s =
      .next (afterSuccess
        { s with
          chType := ty, chPoff := s.stCur + 8, chLen := l, chCrc := w, chValid := true,
          stCur := s.stCur + 12 + l, stCount := s.stCount + 1 }) := by
  have hin := h.streamRecord_inside hopen hfit
  obtain ⟨-, -, hrest, hread, -⟩ :=
    streamRecord_checks_pass h hopen hfit (holds_recordBytes_iff.mp hrecord).1
  have hparse := (parseChunk_ok_iff (n := 12 + l.toNat) (by omega)).mpr
    ⟨l, ty, w, p, Nat.add_comm 12 l.toNat, hlen, hrecord, hletters, hcrc, rfl⟩
  rw [← be32_bytesBe32 l] at hrest hparse
  have hnext := (CommandSuccess.streamNext _ _ hopen hread hrest hparse).exec_eq
  simpa [State.setChunk, State.advanceStream, BitVec.ofNat_add] using hnext

end

end

/-- Settles O39, check by check in the order of R172 and R145, with the read that each check needs. -/
theorem streamNextRule : Obligations.StreamNextRule := by
  unfold Obligations.StreamNextRule
  refine ⟨decode_encode .streamNext, fun s => exec_streamNext_of_closed, fun s hopen hcur => ?_,
    fun s => exec_streamNext_of_short, fun s l h hopen hrest => exec_streamNext_of_overrun h hopen hrest,
    fun s l ty h hopen hfit hfields hother => ?_,
    fun s l ty w p h hopen hfit hlen hrecord hletters hne => ?_,
    fun s l ty w p h hopen hfit hlen hrecord hletters hcrc => ?_, fun s => exec_streamNext_of_unwritten_length,
    fun s l h hopen hfit hl hun => ?_, fun s l ty h hopen hfit hfields hletters hun => ?_⟩
  · exact exec_streamNext_exhausted hopen (by rw [State.streamRest, hcur, Nat.sub_self])
  · obtain ⟨hl, hty⟩ := holds_append_iff.mp hfields
    exact exec_streamNext_of_body_error h hopen hfit hl
      (parseBody_of_not_letters (h.streamRecord_inside hopen hfit) hty hother)
  · obtain ⟨hl, hty, hp, hw⟩ := holds_recordBytes_iff.mp hrecord
    rw [hlen] at hw
    exact exec_streamNext_of_body_error h hopen hfit hl
      (parseBody_of_crc_ne (h.streamRecord_inside hopen hfit) hty hletters hlen hp hw hne)
  · exact ⟨exec_streamNext_of_record h hopen hfit hlen hrecord hletters hcrc, h.toNat_advanced hopen hfit⟩
  · exact exec_streamNext_of_body_fault h hopen hfit hl
      (parseBody_of_unwritten_type (h.streamRecord_inside hopen hfit) hun)
  · obtain ⟨hl, hty⟩ := holds_append_iff.mp hfields
    exact exec_streamNext_of_body_fault h hopen hfit hl
      (parseBody_of_unwritten_rest (h.streamRecord_inside hopen hfit) hty hletters hun)

end Sys2Proof.Machine
end

section
/-!
PROOFS. What STREAM_OPEN and STREAM_NEXT leave unchanged (R171, R172, R177), by the ways in which a command completes.
-/

namespace Sys2Proof.Machine

section
variable {s t : State}

theorem exec_streamOpen_frame (h : exec .streamOpen s = .next t) :
    t = { s with stCur := t.stCur, stEnd := t.stEnd, stCount := t.stCount, stActive := t.stActive, err := t.err,
                 endFlag := false, pending := none } := by
  obtain hsuccess | ⟨e, rfl⟩ := exec_next_cases_of_ne h (by decide)
  · cases hsuccess with
    | streamOpen => rfl
  · rfl

theorem exec_streamNext_frame (h : exec .streamNext s = .next t) :
    t = { s with chType := t.chType, chPoff := t.chPoff, chLen := t.chLen, chValid := t.chValid, chCrc := t.chCrc,
                 stCur := t.stCur, stCount := t.stCount, stActive := t.stActive, err := t.err,
                 endFlag := t.endFlag, pending := none } := by
  obtain hsuccess | ⟨e, rfl⟩ | ⟨e, -, -, rfl⟩ := exec_next_cases h
  · cases hsuccess with
    | streamNext => rfl
    | streamEnd => rfl
  · rfl
  · rfl

end

/-- Settles O49: the frame of each command, and that neither writes a buffer. -/
theorem streamUnitFrame : Obligations.StreamUnitFrame := by
  unfold Obligations.StreamUnitFrame
  refine ⟨fun s t => exec_streamOpen_frame, fun s t => exec_streamNext_frame, fun i s t hi hexec x => ?_⟩
  have hquiet : i ∉ [.sigEmit, .chunkSerialize] := by
    simp only [List.mem_cons, List.not_mem_nil, or_false] at hi
    obtain rfl | rfl := hi <;> decide
  rw [(exec_engineKeeps hexec).ibuf, exec_obuf hquiet hexec]
  exact ⟨rfl, rfl⟩

end Sys2Proof.Machine
end

section
/-!
PROOFS. A chunk that STREAM_NEXT delivers: what it was on the wire, and that CHUNK_SERIALIZE writes the same bytes (R176);
and the bound on a container parse (R174).
-/

namespace Sys2Proof.Machine

/-! ### A delivered chunk -/

/-- STREAM_NEXT, begun in `s`, has delivered a chunk with payload `p` and left `t`: at the old cursor IBUF holds the record of
the new descriptor, which is complete, and the cursor passed over it. -/
structure Delivers (s t : State) (p : List Byte) : Prop where
  status : afterSuccess t = t
  stActive : t.stActive = true
  stEnd : t.stEnd = s.stEnd
  stCur : t.stCur.toNat = s.stCur.toNat + 12 + t.chLen.toNat
  chValid : t.chValid = true
  chPoff : t.chPoff.toNat = s.stCur.toNat + 8
  chCrc : t.chCrc = crc32 (wordBytes t.chType ++ p)
  length : p.length = t.chLen.toNat
  record : Holds s.ibuf s.stCur.toNat (t.descriptorRecord p)

section
variable {s t : State}

/-- In a state that meets the invariants a STREAM_NEXT that succeeds before the end of the stream has delivered a chunk. -/
theorem exec_streamNext_delivers (h : StateInv s) (hexec : exec .streamNext s = .next t) (he : t.err = none)
    (hend : t.endFlag = false) : ∃ p, Delivers s t p := by
  cases exec_success hexec he with
  | streamNext q r hopen hread hfit hparse =>
    have hin := h.streamRange_inside hopen hfit
    obtain ⟨l, ty, _, p, hcount, hlen, hrecord, -, rfl, rfl⟩ := (parseChunk_ok_iff hin).mp hparse
    obtain rfl : be32 q = l := BitVec.eq_of_toNat_eq (by omega)
    have hcur : (BitVec.ofNat 32 (s.stCur.toNat + 12 + (be32 q).toNat)).toNat = s.stCur.toNat + 12 + (be32 q).toNat :=
      toNat_ofNat_of_inside h.cfg (by omega)
    refine ⟨p, { status := rfl, stActive := hopen, stEnd := rfl, stCur := hcur, chValid := rfl,
                 chPoff := toNat_ofNat_of_inside h.cfg (by omega), chCrc := rfl, length := hlen, record := hrecord }⟩
  | streamEnd => cases hend

section
variable {p : List Byte} (d : Delivers s t p)
include d

theorem Delivers.record_length : (t.descriptorRecord p).length = t.stCur.toNat - s.stCur.toNat := by
  have hcur := d.stCur
  rw [State.descriptorRecord_length d.length]
  omega

/-- What was left of the stream is the record and what is left after it. -/
theorem Delivers.streamRest_eq (ht : StateInv t) :
    s.streamRest = (t.descriptorRecord p).length + t.streamRest := by
  obtain ⟨hfits, -⟩ := ht.stream d.stActive
  have hcur := d.stCur
  rw [d.record_length, State.streamRest, State.streamRest, ← d.stEnd]
  omega

end

end

/-! ### Serializing a record that IBUF holds -/

/-- CHUNK_SERIALIZE of a descriptor whose whole record stands at `a` in IBUF. -/
theorem exec_chunkSerialize_of_record {u : State} {a : Nat} {p : List Byte} (hchunk : u.chValid = true)
    (hpoff : u.chPoff.toNat = a + 8) (hin : a + 12 + u.chLen.toNat ≤ u.cfg.ibufSize) (hlen : p.length = u.chLen.toNat)
    (hrecord : Holds u.ibuf a (u.descriptorRecord p)) (hroom : u.outFits (u.descriptorRecord p).length) :
    exec .chunkSerialize u =
      .next (afterSuccess { u.emit (u.descriptorRecord p) with chCrc := crc32 (wordBytes u.chType ++ p) }) := by
  obtain ⟨-, -, hpayload, -⟩ := holds_recordBytes_iff.mp hrecord
  rw [State.outFits, State.descriptorRecord_length hlen] at hroom
  exact exec_chunkSerialize_of_holds hchunk (by omega) (by omega) hlen (hpoff ▸ hpayload)

/-- Two ranges that hold the same bytes are written and agree. -/
theorem Holds.agree {m m' : Memory} {a a' k : Nat} {bs : List Byte} (h : Holds m a bs) (h' : Holds m' a' bs)
    (hk : k < bs.length) : ∃ b, memLookup m (a + k) = some b ∧ memLookup m' (a' + k) = some b :=
  ⟨bs[k], (h k hk).trans (List.getElem?_eq_getElem hk), (h' k hk).trans (List.getElem?_eq_getElem hk)⟩

/-- Settles O41: a delivered chunk has its own CRC, so CHUNK_SERIALIZE writes the record that the cursor passed over. -/
theorem streamChunkRoundTrip : Obligations.StreamChunkRoundTrip := by
  unfold Obligations.StreamChunkRoundTrip
  intro s t u h hexec he hend hsizes hchunk htype hpoff hlength hsame hroom
  obtain ⟨p, d⟩ := exec_streamNext_delivers h hexec he hend
  obtain ⟨hfits, hin⟩ := (exec_keeps_stateInv h hexec).stream d.stActive
  rw [(exec_engineKeeps hexec).cfg, ← hsizes] at hin
  have hcur := d.stCur
  have hsize := d.record_length
  have hdescriptor : u.descriptorRecord p = t.descriptorRecord p := by
    rw [State.descriptorRecord, htype, hlength, State.descriptorRecord]
  have hrecord : Holds u.ibuf s.stCur.toNat (t.descriptorRecord p) :=
    d.record.congr fun k hk => hsame _ (by omega) (by omega)
  rw [← hdescriptor] at hsize hrecord
  have hfit : u.outFits (u.descriptorRecord p).length := by rwa [hsize]
  refine ⟨by omega, _, exec_chunkSerialize_of_record hchunk (hpoff ▸ d.chPoff) (by rw [hlength]; omega)
    (hlength ▸ d.length) hrecord hfit, rfl, ?_, fun k hk => ?_⟩
  · rw [← hsize]
    exact toNat_outPtr_emit (hsizes ▸ h.cfg) hfit
  · exact (emit_holds u _).agree (hdescriptor ▸ d.record) (hsize ▸ hk)

/-! ### One round of a container parse -/

section
variable {s t : State} {k : Nat}

theorem parseStream_of_stop (hexec : exec .streamNext s = .next t) (hstop : t.endFlag = true ∨ t.err ≠ none) :
    parseStream (k + 1) s = .next t := by
  simp only [parseStream, hexec, if_pos hstop]

theorem parseStream_of_delivery (hexec : exec .streamNext s = .next t) (hgo : ¬ (t.endFlag = true ∨ t.err ≠ none)) :
    parseStream (k + 1) s = parseStream k t := by
  simp only [parseStream, hexec, if_neg hgo]

theorem parseStream_of_fault {f : Fault} (hexec : exec .streamNext s = .fault f) :
    parseStream (k + 1) s = .fault f := by
  simp only [parseStream, hexec]

end

/-! ### The bound on a container parse -/

/-- A STREAM_NEXT that ends a container parse, with END or an error, leaves the stream closed (R172, R177). -/
theorem exec_streamNext_stop_closes {s t : State} (hexec : exec .streamNext s = .next t)
    (hstop : t.endFlag = true ∨ t.err ≠ none) : t.stActive = false := by
  simp only [exec] at hexec
  unfold execStreamNext at hexec
  split at hexec
  next hclosed =>
    obtain rfl := raise_next_iff.mp hexec
    exact hclosed
  split at hexec
  · obtain rfl := commitAtEnd_next_iff.mp hexec
    rfl
  split at hexec
  · obtain rfl := abort_next_iff.mp hexec
    rfl
  split at hexec
  · cases hexec
  split at hexec
  · obtain rfl := abort_next_iff.mp hexec
    rfl
  split at hexec
  · cases hexec
  · obtain rfl := abort_next_iff.mp hexec
    rfl
  · obtain rfl := commit_next_iff.mp hexec
    simp at hstop

/-- Each command of a container parse ends it, or delivers a chunk and leaves at least 12 bytes less of the stream (R174). -/
theorem parseStream_ends {s : State} {k : Nat} (h : StateInv s) (hopen : s.stActive = true)
    (hk : s.streamRest / 12 + 1 ≤ k) :
    (∃ t, parseStream k s = .next t ∧ t.stActive = false ∧ (t.endFlag = true ∨ t.err ≠ none))
      ∨ parseStream k s = .fault .unwrittenRead := by
  induction k generalizing s with
  | zero => omega
  | succ k ih =>
    obtain ⟨t, hexec⟩ | hfault := commandsCompleteOrReadUnwritten.1 .streamNext s h
    · by_cases hstop : t.endFlag = true ∨ t.err ≠ none
      · exact .inl ⟨t, parseStream_of_stop hexec hstop, exec_streamNext_stop_closes hexec hstop, hstop⟩
      · rw [parseStream_of_delivery hexec hstop]
        obtain ⟨hend, he⟩ : t.endFlag = false ∧ t.err = none := by simpa using hstop
        have ht := exec_keeps_stateInv h hexec
        obtain ⟨p, d⟩ := exec_streamNext_delivers h hexec he hend
        have hrest := d.streamRest_eq ht
        rw [State.descriptorRecord_length d.length] at hrest
        exact ih ht d.stActive (by omega)
    · exact .inr (parseStream_of_fault hfault)

/-- Settles O42, by the induction on the number of commands in `parseStream_ends`. -/
theorem containerParseEnds : Obligations.ContainerParseEnds := by
  unfold Obligations.ContainerParseEnds
  exact fun s k => parseStream_ends

end Sys2Proof.Machine
end

section
/-!
PROOFS. The stream round trip (R176). A copying container parse is a container parse with output: it runs through the same
states, each with the bytes that the cursor has passed over so far emitted.
-/

namespace Sys2Proof.Machine

/-! ### Output after output -/

theorem memWriteBytes_append (m : Memory) (a : Nat) (xs ys : List Byte) :
    memWriteBytes m a (xs ++ ys) = memWriteBytes (memWriteBytes m a xs) (a + xs.length) ys := by
  induction xs generalizing m a with
  | nil => rfl
  | cons x xs ih =>
    rw [List.cons_append, memWriteBytes_cons, memWriteBytes_cons, ih, List.length_cons,
      show a + 1 + xs.length = a + (xs.length + 1) by omega]

/-- Two outputs that fit are one. -/
theorem State.emit_emit {s : State} {xs : List Byte} (hcfg : s.cfg.Wf) (hfit : s.outFits xs.length) (ys : List Byte) :
    (s.emit xs).emit ys = s.emit (xs ++ ys) := by
  have hptr := toNat_outPtr_emit hcfg hfit
  unfold State.emit at hptr ⊢
  simp only [hptr, memWriteBytes_append, List.length_append, Nat.add_assoc]

/-! ### STREAM_NEXT looks at no output -/

section
variable (s : State) (bs : List Byte)

@[simp] theorem State.emit_memRead4 (a : Nat) : (s.emit bs).memRead4 a = s.memRead4 a := rfl
@[simp] theorem State.emit_parseChunk (a n : Nat) : (s.emit bs).parseChunk a n = s.parseChunk a n := rfl
@[simp] theorem State.emit_streamRest : (s.emit bs).streamRest = s.streamRest := rfl

/-- STREAM_NEXT takes the same branch whatever OBUF and OUT_PTR hold, and carries them through. -/
theorem exec_streamNext_emit : exec .streamNext (s.emit bs) = Result.mapNext (·.emit bs) (exec .streamNext s) := by
  fun_cases execStreamNext s <;> simp [exec, execStreamNext, *] <;> rfl

end

/-- STREAM_NEXT does not write OUT_PTR. -/
theorem exec_streamNext_outPtr {s t : State} (h : exec .streamNext s = .next t) : t.outPtr = s.outPtr := by
  rw [exec_streamNext_frame h]

/-- After a delivery CHUNK_SERIALIZE appends the delivered record to the output, and changes nothing else: CH_CRC already
holds the record's CRC. -/
theorem Delivers.exec_chunkSerialize {s t : State} {p xs : List Byte} (d : Delivers s t p) (h : StateInv s)
    (hexec : exec .streamNext s = .next t) (hroom : t.outFits (xs ++ t.descriptorRecord p).length) :
    exec .chunkSerialize (t.emit xs) = .next (t.emit (xs ++ t.descriptorRecord p)) := by
  have ht := exec_keeps_stateInv h hexec
  obtain ⟨hfits, hin⟩ := ht.stream d.stActive
  rw [List.length_append, State.outFits, ← Nat.add_assoc] at hroom
  have hxs : t.outFits xs.length := (Nat.le_add_right _ _).trans hroom
  have hfit : (t.emit xs).outFits (t.descriptorRecord p).length := by
    rwa [State.outFits, toNat_outPtr_emit ht.cfg hxs]
  have hrecord : Holds t.ibuf s.stCur.toNat (t.descriptorRecord p) := (exec_engineKeeps hexec).ibuf ▸ d.record
  rw [exec_chunkSerialize_of_record (u := t.emit xs) d.chValid d.chPoff (d.stCur ▸ hfits.trans hin) d.length hrecord hfit,
    ← State.emit_emit ht.cfg hxs, State.emit_chType, ← d.chCrc]
  exact congrArg (fun x => Host.Outcome.next ((State.emit x xs).emit (t.descriptorRecord p))) d.status

/-! ### One round of a copying parse -/

section
variable {s t u : State} {k : Nat}

theorem copyStream_of_stop (hexec : exec .streamNext s = .next t) (hstop : t.endFlag = true ∨ t.err ≠ none) :
    copyStream (k + 1) s = .next t := by
  simp only [copyStream, hexec, if_pos hstop]

theorem copyStream_of_delivery (hexec : exec .streamNext s = .next t) (hgo : ¬ (t.endFlag = true ∨ t.err ≠ none))
    (hserialize : exec .chunkSerialize t = .next u) (he : u.err = none) : copyStream (k + 1) s = copyStream k u := by
  simp only [copyStream, hexec, if_neg hgo, hserialize, he, ne_eq, not_true_eq_false, if_false]

end

/-! ### The two parses side by side -/

/-- From a state with output `xs`, the copying parse of a stream that parses to its end appends the rest of the stream. -/
theorem copyStream_of_parseStream {k : Nat} {s p : State} {xs : List Byte} (h : StateInv s) (hgo : s.endFlag = false)
    (hparse : parseStream k s = .next p) (hend : p.endFlag = true) (hroom : s.outFits (xs.length + s.streamRest)) :
    ∃ bs, bs.length = s.streamRest ∧ Holds s.ibuf s.stCur.toNat bs ∧ p.cfg = s.cfg ∧ p.outPtr = s.outPtr
      ∧ copyStream k (s.emit xs) = .next (p.emit (xs ++ bs)) := by
  induction k generalizing s xs with
  | zero =>
    cases hparse
    simp [hgo] at hend
  | succ k ih =>
    obtain ⟨t, hexec⟩ | ⟨f, hfault⟩ := exec_next_or_fault .streamNext s
    · have hcopy : exec .streamNext (s.emit xs) = .next (t.emit xs) := by rw [exec_streamNext_emit, hexec]; rfl
      have hptr := exec_streamNext_outPtr hexec
      have hkeeps := exec_engineKeeps hexec
      by_cases hstop : t.endFlag = true ∨ t.err ≠ none
      · obtain rfl : t = p := by simpa [parseStream_of_stop hexec hstop] using hparse
        obtain ⟨-, -, hrest⟩ := exec_endFlag hexec hend
        exact ⟨[], hrest.symm, holds_nil _ _, hkeeps.cfg, hptr, by rw [List.append_nil, copyStream_of_stop hcopy hstop]⟩
      · rw [parseStream_of_delivery hexec hstop] at hparse
        obtain ⟨hgo, he⟩ : t.endFlag = false ∧ t.err = none := by simpa using hstop
        have ht := exec_keeps_stateInv h hexec
        obtain ⟨q, d⟩ := exec_streamNext_delivers h hexec he hgo
        have hrest := d.streamRest_eq ht
        have hroom : t.outFits ((xs ++ t.descriptorRecord q).length + t.streamRest) := by
          rwa [State.outFits, hptr, hkeeps.cfg, List.length_append, Nat.add_assoc xs.length, ← hrest]
        obtain ⟨bs, hlen, hbs, hsizes, hout, hrun⟩ := ih ht hgo hparse hroom
        have hserialize := d.exec_chunkSerialize h hexec (xs := xs) (by unfold State.outFits at *; omega)
        have hcursor : s.stCur.toNat + (t.descriptorRecord q).length = t.stCur.toNat := by
          rw [State.descriptorRecord_length d.length, d.stCur, Nat.add_assoc]
        refine ⟨t.descriptorRecord q ++ bs, by rw [List.length_append, hlen, hrest],
          holds_append_iff.mpr ⟨d.record, by rwa [hcursor, ← hkeeps.ibuf]⟩, hsizes.trans hkeeps.cfg, hout.trans hptr, ?_⟩
        rw [copyStream_of_delivery hcopy hstop hserialize he, hrun, List.append_assoc]
    · rw [parseStream_of_fault hfault] at hparse
      cases hparse

/-! ### The opened stream -/

section
variable {s t : State}

/-- A STREAM_OPEN that succeeds has found the signature, and the rest of its range is the rest of the stream (R171). -/
theorem exec_streamOpen_success (h : StateInv s) (hexec : exec .streamOpen s = .next t) (he : t.err = none) :
    afterSuccess t = t ∧ t.stCur.toNat = s.argStart + 8 ∧ 8 + t.streamRest = s.argCount
      ∧ Holds s.ibuf s.argStart signature := by
  cases exec_success hexec he with
  | streamOpen hin hcount hread =>
    have hcur : (BitVec.ofNat 32 (s.argStart + 8)).toNat = s.argStart + 8 :=
      toNat_ofNat_of_inside h.cfg ((Nat.add_le_add_left hcount _).trans hin)
    have hend : (BitVec.ofNat 32 (s.argStart + s.argCount)).toNat = s.argStart + s.argCount :=
      toNat_ofNat_of_inside h.cfg hin
    refine ⟨rfl, hcur, ?_, (memRead_ok_iff.mp hread).2.2⟩
    rw [State.streamRest, afterSuccess_stEnd, afterSuccess_stCur, hcur, hend]
    omega

/-- STREAM_OPEN does not write OUT_PTR. -/
theorem exec_streamOpen_outPtr (h : exec .streamOpen s = .next t) : t.outPtr = s.outPtr := by
  rw [exec_streamOpen_frame h]

theorem exec_sigEmit_success (hexec : exec .sigEmit s = .next t) (he : t.err = none) :
    t = afterSuccess (s.emit signature) := by
  cases exec_success hexec he with
  | sigEmit => rfl

end

/-- Settles O43: SIG_EMIT emits the signature that STREAM_OPEN found, and the copying parse emits the rest of the stream
behind it. -/
theorem streamRoundTrip : Obligations.StreamRoundTrip := by
  unfold Obligations.StreamRoundTrip
  intro s t u p k h hopen het hemit heu hparse hend hep hroom
  obtain ⟨hstatus, hcur, hrest, hsignature⟩ := exec_streamOpen_success h hopen het
  have hkeeps := exec_engineKeeps hopen
  have hptr := exec_streamOpen_outPtr hopen
  have hu : u = t.emit signature :=
    (exec_sigEmit_success hemit heu).trans (congrArg (State.emit · signature) hstatus)
  have hfit : t.outFits (signature.length + t.streamRest) := by
    rw [State.outFits, hptr, hkeeps.cfg]
    exact hrest ▸ hroom
  obtain ⟨bs, hlen, hbs, hsizes, hout, hrun⟩ :=
    copyStream_of_parseStream (exec_keeps_stateInv h hopen) (hstatus ▸ rfl) hparse hend hfit
  have hcount : (signature ++ bs).length = s.argLen.toNat := by rw [List.length_append, hlen]; exact hrest
  have hstream : Holds s.ibuf s.argAddr.toNat (signature ++ bs) :=
    holds_append_iff.mpr ⟨hsignature, by rwa [hcur, hkeeps.ibuf] at hbs⟩
  have hstart := congrArg BitVec.toNat (hout.trans hptr)
  refine ⟨p.emit (signature ++ bs), hu ▸ hrun, hend, hep, ?_, fun j hj => ?_⟩
  · rw [← hcount, ← hstart]
    refine toNat_outPtr_emit (hsizes.trans hkeeps.cfg ▸ h.cfg) ?_
    rwa [State.outFits, hcount, hstart, hsizes, hkeeps.cfg]
  · rw [← hstart]
    exact (emit_holds p _).agree hstream (hcount ▸ hj)

end Sys2Proof.Machine
end

section
/-!
PROOFS. The engine's step on its pending word (R73, R198), and which agent moves (R199, R253).
-/

namespace Sys2Proof.Machine

section
variable {s t : State} {w : Word} {r : List Agent}

/-! ### A completion, by the pending word's outcome -/

theorem complete_of_idle (hp : s.pending = none) : complete s = .next s := by
  simp [complete, hp]

theorem complete_of_next (hp : s.pending = some w) (hrun : runWord w s = .next t) : complete s = .next t := by
  simp [complete, hp, hrun]

theorem complete_of_fault {f : Fault} (hp : s.pending = some w) (hrun : runWord w s = .fault f) :
    complete s = .next (s.faultCommand f) := by
  simp [complete, hp, hrun]

theorem complete_of_refused {e : Refusal} (hp : s.pending = some w) (hrun : runWord w s = .refused e) :
    complete s = .refused e := by
  simp [complete, hp, hrun]

/-! ### The schedule -/

theorem step_of_engineTurn (hf : s.faulted = none) (hturns : s.turns = .engine :: r) :
    step s = complete { s with turns := r } := by
  rw [step_of_engine hf (mover_of_turns hturns), popTurn_of_turns hturns]

theorem mover_of_idle (hturns : s.turns = []) (hp : s.pending = none) : s.mover = .host := by
  simp [State.mover, scheduled_of_idle hp, hturns]

theorem popTurn_of_idle (hturns : s.turns = []) (hp : s.pending = none) : s.popTurn = s := by
  rw [State.popTurn, scheduled_of_idle hp, hturns, List.tail_nil, ← hturns]

/-- With the turns used up and nothing pending the host moves, and no turn is used up. -/
theorem step_of_idle (hf : s.faulted = none) (hturns : s.turns = []) (hp : s.pending = none) : step s = hostMove s := by
  rw [step_of_host hf (mover_of_idle hturns hp), popTurn_of_idle hturns hp]

/-- Once a free delay is taken there are turns left, so no second one is taken. -/
@[simp] theorem State.scheduled_scheduled (s : State) : s.scheduled.scheduled = s.scheduled := by
  cases hp : s.pending with
  | none => exact scheduled_of_idle (s.scheduled_pending.trans hp)
  | some w =>
    obtain ⟨a, r, hturns⟩ := List.exists_cons_of_ne_nil (scheduled_turns_ne_nil hp)
    exact scheduled_of_turns hturns

/-- Taking the free delay is no event of its own: the step is that of the state with the delay's turns added. -/
theorem step_scheduled (s : State) : step s.scheduled = step s := by
  simp only [step, event, State.mover, State.popTurn, State.scheduled_scheduled, State.scheduled_faulted]

end

/-- Settles O4, by the three outcomes of the command's meaning. -/
theorem stepRunsDecodedCommand : Obligations.StepRunsDecodedCommand := by
  unfold Obligations.StepRunsDecodedCommand
  intro s w i hf hmover hp hdecode
  rw [step_of_engine hf hmover]
  have hp : s.popTurn.pending = some w := s.popTurn_pending.trans hp
  have hrun : runWord w s.popTurn = exec i s.popTurn := runWord_of_ok hdecode _
  cases hexec : exec i s.popTurn with
  | next t => exact complete_of_next hp (hrun.trans hexec)
  | fault f => exact complete_of_fault hp (hrun.trans hexec)
  | refused e => exact complete_of_refused hp (hrun.trans hexec)

/-- Settles O5: an illegal word's outcome is the report of IllegalCommand. -/
theorem stepRejectsIllegalWord : Obligations.StepRejectsIllegalWord := by
  unfold Obligations.StepRejectsIllegalWord
  intro s w d hf hmover hp hdecode
  rw [step_of_engine hf hmover]
  exact complete_of_next (s.popTurn_pending.trans hp) (runWord_of_error hdecode _)

/-- Settles O7: a turn at the head is taken as it stands, and with the turns used up `pending` decides. -/
theorem turnsChooseTheAgent : Obligations.TurnsChooseTheAgent := by
  unfold Obligations.TurnsChooseTheAgent
  refine ⟨fun s r hf hturns => ?_, fun s r hf hturns => ?_, fun s r hf hturns hp => ?_, fun s hf hturns hp => ?_,
    fun s hf hturns hp hend => ?_, fun s w hf hturns hp => ?_, State.popTurn_eq⟩
  · exact ⟨mover_of_turns hturns, popTurn_of_turns hturns, step_of_hostTurn hf hturns⟩
  · exact ⟨mover_of_turns hturns, popTurn_of_turns hturns, step_of_engineTurn hf hturns⟩
  · exact (step_of_engineTurn hf hturns).trans (complete_of_idle hp)
  · exact ⟨mover_of_idle hturns hp, popTurn_of_idle hturns hp, step_of_idle hf hturns hp⟩
  · exact (step_of_idle hf hturns hp).trans (hostMove_of_end hend)
  · rw [← step_scheduled s, scheduled_of_pending hturns hp]

end Sys2Proof.Machine
end

section
/-!
PROOFS. The host's transactions one by one: register writes and reads by offset and width (R191 to R193), and byte accesses
to the two buffers (R194 to R196).
-/

namespace Sys2Proof.Machine

section
variable {s t : State} {v w : Word} {width off : Nat}

theorem State.busy_of_idle (h : s.pending = none) : s.busy = false := by
  simp [State.busy, h]

/-! ### Writes of CMD -/

/-- A CMD write (R192) issues its word when BUSY = 0, and otherwise has no next state. -/
theorem perform_cmdWrite_next_iff : perform (.regWrite 32 0x00 w) s = .next t ↔ s.busy = false ∧ t = s.issue w := by
  cases hbusy : s.busy with
  | true => simp [perform_regWrite_busy hbusy]
  | false => simp [perform_cmdWrite hbusy, eq_comm]

/-- While BUSY = 1 only a read and Reset have a next state: each of the writes needs BUSY = 0 (R191, R192, R194). -/
theorem perform_next_of_busy {x : Txn} (hbusy : s.busy = true) (h : perform x s = .next t) :
    (∃ rd, t = s.record rd) ∨ (x = .reset ∧ t = s.resetBlock) := by
  simpa [hbusy] using perform_next_cases h

/-! ### Register accesses by offset and width -/

theorem regOffset_aligned_inside (r : Reg) : regOffset r % 4 = 0 ∧ regOffset r < 0x44 := by
  cases r <;> decide

/-- No register stands at an offset that is not a multiple of 4, or past the map (R21, R54). -/
theorem regAt_eq_none (hbad : off % 4 ≠ 0 ∨ 0x44 ≤ off) : regAt off = none := by
  refine List.find?_eq_none.mpr fun r _ hoff => ?_
  obtain ⟨haligned, hinside⟩ := regOffset_aligned_inside r
  rw [eq_of_beq hoff] at haligned hinside
  omega

theorem perform_regWrite_badAccess (hbusy : s.busy = false) (hbad : width ≠ 32 ∨ off % 4 ≠ 0 ∨ 0x44 ≤ off) (v : Word) :
    perform (.regWrite width off v) s = .fault .badRegisterAccess := by
  by_cases hwidth : width = 32
  · simp [perform, hostRegWrite, hbusy, regAt_eq_none (hbad.resolve_left (· hwidth))]
  · simp [perform, hostRegWrite, hbusy, hwidth]

theorem perform_regRead_badAccess (hbad : width ≠ 32 ∨ off % 4 ≠ 0 ∨ 0x44 ≤ off) :
    perform (.regRead width off) s = .fault .badRegisterAccess := by
  by_cases hwidth : width = 32
  · simp [perform, hostRegRead, regAt_eq_none (hbad.resolve_left (· hwidth))]
  · simp [perform, hostRegRead, hwidth]

/-- The RO registers of R21. -/
def readOnlyRegs : List Reg :=
  [.status, .tag, .tagFlags, .chType, .chFlags, .chPoff, .chLen, .chCrc, .crcOut, .stCur, .stEnd, .stCount]

theorem perform_wr_readOnly (hbusy : s.busy = false) {r : Reg} (hr : r ∈ readOnlyRegs) (v : Word) :
    perform (.regWrite 32 (regOffset r) v) s = .fault .writeToReadOnly := by
  revert hr
  cases r <;> simp [readOnlyRegs, perform, hostRegWrite, hbusy, regAt_regOffset]

/-- A plain RW register takes any value while BUSY = 0 (R191). -/
theorem perform_wr_operand (hbusy : s.busy = false) (v : Word) :
    perform (.regWrite 32 (regOffset .argAddr) v) s = .next { s with argAddr := v }
      ∧ perform (.regWrite 32 (regOffset .argLen) v) s = .next { s with argLen := v }
      ∧ perform (.regWrite 32 (regOffset .tagIn) v) s = .next { s with tagIn := v }
      ∧ perform (.regWrite 32 (regOffset .outPtr) v) s = .next { s with outPtr := v } := by
  simp [perform, hostRegWrite, hbusy, regAt_regOffset]

/-- Issuing a command changes what CMD and STATUS read as, and no other register (R61). -/
theorem regValue_issue {r : Reg} (hcmd : r ≠ .cmd) (hstatus : r ≠ .status) (s : State) (w : Word) :
    (s.issue w).regValue r = s.regValue r := by
  cases r
  case cmd => exact absurd rfl hcmd
  case status => exact absurd rfl hstatus
  all_goals rfl

/-! ### Accesses to the buffers -/

theorem bufRead_outside {size a : Nat} {m : Memory} (ha : size ≤ a) : bufRead size m a = .error .bufferAddress := by
  simp [bufRead, ha]

theorem perform_ibufRead_of_ok {a : Nat} {b : Byte} (h : bufRead s.cfg.ibufSize s.ibuf a = .ok b) :
    perform (.ibufRead a) s = .next (s.record (.byte b)) := by
  simp [perform, hostIbufRead, h]

theorem perform_ibufRead_of_error {a : Nat} {f : Fault} (h : bufRead s.cfg.ibufSize s.ibuf a = .error f) :
    perform (.ibufRead a) s = .fault f := by
  simp [perform, hostIbufRead, h]

theorem perform_obufRead_of_ok {a : Nat} {b : Byte} (h : bufRead s.cfg.obufSize s.obuf a = .ok b) :
    perform (.obufRead a) s = .next (s.record (.byte b)) := by
  simp [perform, hostObufRead, h]

theorem perform_obufRead_of_error {a : Nat} {f : Fault} (h : bufRead s.cfg.obufSize s.obuf a = .error f) :
    perform (.obufRead a) s = .fault f := by
  simp [perform, hostObufRead, h]

theorem perform_ibufWrite_outside (hbusy : s.busy = false) {a : Nat} (ha : s.cfg.ibufSize ≤ a) (b : Byte) :
    perform (.ibufWrite a b) s = .fault .bufferAddress := by
  simp [perform, hostIbufWrite, hbusy, ha]

/-- A register write leaves IBUF as it was, whichever register it writes. -/
theorem perform_regWrite_ibuf (h : perform (.regWrite width off v) s = .next t) : t.ibuf = s.ibuf := by
  simp only [perform, hostRegWrite] at h
  split at h
  · cases h
  split at h
  · cases h
  split at h <;> cases h <;> rfl

/-- IBUF is written by IbufWrite and Reset alone (R194, R197). -/
theorem perform_ibuf {x : Txn} (h : perform x s = .next t) (hwrite : ∀ a b, x ≠ .ibufWrite a b) (hreset : x ≠ .reset) :
    t.ibuf = s.ibuf := by
  have of_record : (∃ rd, t = s.record rd) → t.ibuf = s.ibuf := by rintro ⟨rd, rfl⟩; rfl
  cases x with
  | regWrite width off v => exact perform_regWrite_ibuf h
  | regRead width off => exact of_record (perform_read_next h (.inl ⟨width, off, rfl⟩))
  | ibufWrite a b => exact absurd rfl (hwrite a b)
  | ibufRead a => exact of_record (perform_read_next h (.inr (.inl ⟨a, rfl⟩)))
  | obufRead a => exact of_record (perform_read_next h (.inr (.inr ⟨a, rfl⟩)))
  | reset => exact absurd rfl hreset

end

/-- Settles O11: only the BUSY check stands before the issue, and while BUSY = 1 only reads and Reset have a next state. -/
theorem cmdWriteIssues : Obligations.CmdWriteIssues := by
  unfold Obligations.CmdWriteIssues
  refine ⟨fun s w hp => ⟨perform_cmdWrite (State.busy_of_idle hp) w, fun t hperform => ?_⟩, fun s v w hp => ?_,
    fun s t x w hp hx hperform => ?_⟩
  · obtain ⟨-, rfl⟩ := perform_cmdWrite_next_iff.mp hperform
    exact ⟨rfl, rfl⟩
  · exact perform_regWrite_busy (State.busy_of_pending hp) _ _ _
  · obtain ⟨rd, rfl⟩ | ⟨hreset, -⟩ := perform_next_of_busy (State.busy_of_pending hp) hperform
    · exact hp
    · exact absurd hreset hx

/-- Settles O14: the width is looked at before the register. -/
theorem wrongWidthWriteToReadOnly : Obligations.WrongWidthWriteToReadOnly := by
  unfold Obligations.WrongWidthWriteToReadOnly
  intro s v width off hp _ hwidth
  exact perform_regWrite_badAccess (State.busy_of_idle hp) (.inl hwidth) v

/-- Settles O12: a plain RW register, BUSY = 1, an RO register, no register, and a wrong width at an RO register. -/
theorem registerWrites : Obligations.RegisterWrites := by
  unfold Obligations.RegisterWrites
  refine ⟨fun s v hp => ?_, fun s v w off hp _ => ?_, fun s v off hp hoff => ?_, fun s v width off hp _ hbad => ?_,
    fun s v width off hp hoff hwidth => ?_⟩
  · exact perform_wr_operand (State.busy_of_idle hp) v
  · exact perform_regWrite_busy (State.busy_of_pending hp) _ _ _
  · have hoff : off ∈ readOnlyRegs.map regOffset := hoff
    obtain ⟨r, hr, rfl⟩ := List.mem_map.mp hoff
    exact perform_wr_readOnly (State.busy_of_idle hp) hr v
  · exact perform_regWrite_badAccess (State.busy_of_idle hp) hbad v
  · rw [wrongWidthWriteToReadOnly s v width off hp hoff hwidth]
    exact List.mem_cons_of_mem _ List.mem_cons_self

/-- Settles O15: the rows of the map are the registers' offsets and values, and issuing a command writes CMD and STATUS. -/
theorem registerReads : Obligations.RegisterReads := by
  unfold Obligations.RegisterReads
  refine ⟨fun s off v hrow => ?_, fun s width off => perform_regRead_badAccess,
    fun s t w r _ hperform hcmd hstatus => ?_⟩
  · have hrow : (off, v) ∈ allRegs.map fun r => (regOffset r, s.regValue r) := hrow
    obtain ⟨r, -, hr⟩ := List.mem_map.mp hrow
    cases hr
    exact perform_rd s r
  · obtain ⟨-, rfl⟩ := perform_cmdWrite_next_iff.mp hperform
    exact regValue_issue hcmd hstatus s w

/-- Settles O16: the checks of an IbufWrite in their order, the cell it sets, and that IBUF has no other writer but Reset. -/
theorem ibufWriteSetsOneCell : Obligations.IbufWriteSetsOneCell := by
  unfold Obligations.IbufWriteSetsOneCell
  refine ⟨fun s a b hp ha => ?_, fun s w a b hp => ?_, fun s a b hp ha => ?_, fun s t x => perform_ibuf⟩
  · exact ⟨_, perform_ibufWrite_next_iff.mpr ⟨State.busy_of_idle hp, ha, rfl⟩, rfl, memLookup_memWrite_same _ _ _,
      fun x hx => memLookup_memWrite_other _ _ hx.symm⟩
  · exact perform_ibufWrite_busy (State.busy_of_pending hp) a b
  · exact perform_ibufWrite_outside (State.busy_of_idle hp) ha b

/-- Settles O17: each buffer's read is that of one cell (written, unwritten or outside), and a CMD write only issues. -/
theorem bufferReads : Obligations.BufferReads := by
  unfold Obligations.BufferReads
  refine ⟨fun s a b ha hb => ?_, fun s a ha hb => ?_, fun s a ha => ?_, fun s a b ha hb => ?_, fun s a ha hb => ?_,
    fun s a ha => ?_, fun s t w hperform => ?_⟩
  · exact perform_ibufRead_of_ok (bufRead_ok_iff.mpr ⟨ha, hb⟩)
  · exact perform_ibufRead_of_error (bufRead_unwritten ha hb)
  · exact perform_ibufRead_of_error (bufRead_outside ha)
  · exact perform_obufRead_of_ok (bufRead_ok_iff.mpr ⟨ha, hb⟩)
  · exact perform_obufRead_of_error (bufRead_unwritten ha hb)
  · exact perform_obufRead_of_error (bufRead_outside ha)
  · obtain ⟨-, rfl⟩ := perform_cmdWrite_next_iff.mp hperform
    exact ⟨rfl, rfl, rfl⟩

end Sys2Proof.Machine
end

section
/-!
PROOFS. The errors each command can report (R226), and that a model fault is permanent (R233).
-/

namespace Sys2Proof.Machine

/-- The errors `parse_chunk` can raise (R145). -/
def parseErrors : List CmdError := [.lengthMismatch, .invalidChunkType, .invalidCrc]

/-- R226's table: the errors of a command's checks, in their order. -/
def commandErrors : Instr → List CmdError
  | .crcInit => []
  | .crcFeed => [.rangeError]
  | .tagConstruct => [.invalidByte]
  | .tagParse => [.rangeError, .invalidLength, .invalidByte]
  | .chunkSet => [.noTag, .rangeError]
  | .chunkCrc => [.noChunk]
  | .chunkSerialize => [.noChunk, .outputOverflow]
  | .chunkParse => .rangeError :: parseErrors
  | .streamOpen => [.rangeError, .invalidSignature]
  | .streamNext => .streamNotOpen :: parseErrors
  | .sigEmit => [.outputOverflow]

/-- A next state that `r` answers reports no error, or one of `es`. -/
def ReportsOnly (es : List CmdError) (r : Result) : Prop :=
  ∀ t, r = .next t → t.err ∈ none :: es.map some

/-! ### What the ends of a command report -/

section
variable {es : List CmdError} {e : CmdError} {s : State}

theorem ReportsOnly.commit : ReportsOnly es (commit s) := by
  intro t h
  obtain rfl := commit_next_iff.mp h
  exact List.mem_cons_self

theorem ReportsOnly.commitAtEnd : ReportsOnly es (commitAtEnd s) := by
  intro t h
  obtain rfl := commitAtEnd_next_iff.mp h
  exact List.mem_cons_self

theorem ReportsOnly.raise (he : e ∈ es) : ReportsOnly es (raise e s) := by
  intro t h
  obtain rfl := raise_next_iff.mp h
  exact List.mem_cons_of_mem _ (List.mem_map_of_mem he)

theorem ReportsOnly.abort (he : e ∈ es) : ReportsOnly es (abort e s) := .raise he

theorem ReportsOnly.fault {f : Fault} : ReportsOnly es (.fault f) := nofun

end

/-! ### What each command reports -/

section
variable {s : State}

theorem parseChunk_error_mem {a n : Nat} {e : CmdError} (h : s.parseChunk a n = .error (.error e)) :
    e ∈ parseErrors := by
  simpa [parseErrors] using parseChunk_stop h

theorem execCrcFeed_reportsOnly : ReportsOnly (commandErrors .crcFeed) (execCrcFeed s) := by
  unfold execCrcFeed
  split
  · split
    · exact .fault
    · exact .commit
  · exact .raise (by decide)

theorem execTagConstruct_reportsOnly : ReportsOnly (commandErrors .tagConstruct) (execTagConstruct s) := by
  unfold execTagConstruct
  split
  · exact .commit
  · exact .raise (by decide)

theorem execTagParse_reportsOnly : ReportsOnly (commandErrors .tagParse) (execTagParse s) := by
  unfold execTagParse
  split
  · exact .raise (by decide)
  split
  · exact .raise (by decide)
  split
  · exact .fault
  split
  · exact .commit
  · exact .raise (by decide)

theorem execChunkSet_reportsOnly : ReportsOnly (commandErrors .chunkSet) (execChunkSet s) := by
  unfold execChunkSet
  split
  · exact .raise (by decide)
  split
  · exact .raise (by decide)
  · exact .commit

theorem execChunkCrc_reportsOnly : ReportsOnly (commandErrors .chunkCrc) (execChunkCrc s) := by
  unfold execChunkCrc
  split
  · exact .raise (by decide)
  split
  · exact .fault
  · exact .commit

theorem execChunkSerialize_reportsOnly : ReportsOnly (commandErrors .chunkSerialize) (execChunkSerialize s) := by
  unfold execChunkSerialize
  split
  · exact .raise (by decide)
  split
  · exact .raise (by decide)
  split
  · exact .fault
  · exact .commit

theorem execChunkParse_reportsOnly : ReportsOnly (commandErrors .chunkParse) (execChunkParse s) := by
  unfold execChunkParse
  split
  · exact .raise (by decide)
  split
  · exact .fault
  next e hparse => exact .raise (List.mem_cons_of_mem _ (parseChunk_error_mem hparse))
  · exact .commit

theorem execStreamOpen_reportsOnly : ReportsOnly (commandErrors .streamOpen) (execStreamOpen s) := by
  unfold execStreamOpen
  split
  · exact .raise (by decide)
  split
  · exact .raise (by decide)
  split
  · exact .fault
  split
  · exact .raise (by decide)
  · exact .commit

/-- STREAM_NEXT's own LengthMismatch is one of the parser's errors (R172). -/
theorem execStreamNext_reportsOnly : ReportsOnly (commandErrors .streamNext) (execStreamNext s) := by
  unfold execStreamNext
  split
  · exact .raise (by decide)
  split
  · exact .commitAtEnd
  split
  · exact .abort (by decide)
  split
  · exact .fault
  split
  · exact .abort (by decide)
  split
  · exact .fault
  next e hparse => exact .abort (List.mem_cons_of_mem _ (parseChunk_error_mem hparse))
  · exact .commit

theorem execSigEmit_reportsOnly : ReportsOnly (commandErrors .sigEmit) (execSigEmit s) := by
  unfold execSigEmit
  split
  · exact .commit
  · exact .raise (by decide)

end

theorem exec_reportsOnly (i : Instr) (s : State) : ReportsOnly (commandErrors i) (exec i s) := by
  cases i with
  | crcInit => exact .commit
  | crcFeed => exact execCrcFeed_reportsOnly
  | tagConstruct => exact execTagConstruct_reportsOnly
  | tagParse => exact execTagParse_reportsOnly
  | chunkSet => exact execChunkSet_reportsOnly
  | chunkCrc => exact execChunkCrc_reportsOnly
  | chunkSerialize => exact execChunkSerialize_reportsOnly
  | chunkParse => exact execChunkParse_reportsOnly
  | streamOpen => exact execStreamOpen_reportsOnly
  | streamNext => exact execStreamNext_reportsOnly
  | sigEmit => exact execSigEmit_reportsOnly

/-- Settles O51: each clause is a row of R226's table. -/
theorem outcomesOfEachCommand : Obligations.OutcomesOfEachCommand := by
  unfold Obligations.OutcomesOfEachCommand
  exact ⟨fun s t h => List.mem_singleton.mp (exec_reportsOnly .crcInit s t h), exec_reportsOnly .crcFeed,
    exec_reportsOnly .tagConstruct, exec_reportsOnly .tagParse, exec_reportsOnly .chunkSet, exec_reportsOnly .chunkCrc,
    exec_reportsOnly .chunkSerialize, exec_reportsOnly .chunkParse, exec_reportsOnly .streamOpen,
    exec_reportsOnly .streamNext, exec_reportsOnly .sigEmit⟩

/-! ### Model faults -/

section
variable {s : State} {f : Fault}

theorem hostMove_of_txn_fault {x : Txn} (hline : s.program[s.hostPos]? = some (.txn x))
    (hperform : perform x s = .fault f) : hostMove s = .next (s.markFault f) := by
  simp [hostMove, hline, hperform]

theorem step_of_faulted (hf : s.faulted = some f) : step s = .fault f := by
  simp [step, hf]

theorem not_ended_of_faulted (hf : s.faulted = some f) : ¬ Ended s := by
  rintro ⟨-, -, hnone⟩
  cases hnone.symm.trans hf

end

/-- Settles O6: a fault of either agent's event sets the mark, a marked state has no event, and Reset copies the mark. -/
theorem modelFaultsArePermanent : Obligations.ModelFaultsArePermanent := by
  unfold Obligations.ModelFaultsArePermanent
  refine ⟨fun s w f hf hmover hp hrun => ?_, fun s x f hf hmover hline hperform => ?_,
    fun s f hf => ⟨step_of_faulted hf, not_ended_of_faulted hf⟩, fun s f hf => ⟨s.resetBlock, rfl, hf⟩⟩
  · rw [step_of_engine hf hmover]
    exact complete_of_fault (s.popTurn_pending.trans hp) hrun
  · rw [step_of_host hf hmover]
    exact hostMove_of_txn_fault (by simpa using hline) hperform

end Sys2Proof.Machine
end

section
/-!
PROOFS. The state after reset and the Reset transaction (R197, R250 to R254), and that a pending command completes (R262).
-/

namespace Sys2Proof.Machine

/-! ### Reset -/

/-- Every register of the map reads 0 after reset: CRC_OUT because CRC_ACC is all ones, the flag registers because no tag
and no chunk is valid (R29, R30). No value depends on the sizes, so the two that are computed are those of `State.reset`. -/
theorem regValue_resetWith (c : Config) (r : Reg) : (State.resetWith c).regValue r = 0 := by
  cases r
  case status => exact (show State.reset.statusWord = 0 by decide)
  case crcOut => exact (show State.reset.regValue .crcOut = 0 by decide)
  all_goals rfl

theorem perform_reset (s : State) : perform .reset s = .next s.resetBlock := rfl

/-- Settles O19: the registers one by one, and two buffers with no written cell. -/
theorem resetState : Obligations.ResetState := by
  unfold Obligations.ResetState
  intro c
  exact ⟨regValue_resetWith c, rfl, rfl, fun x => ⟨memLookup_nil x, memLookup_nil x⟩, rfl, rfl, rfl, rfl, rfl, rfl⟩

/-- Settles O20: the transaction is `State.resetBlock`, which copies the mark, the host and the schedule. -/
theorem resetTransaction : Obligations.ResetTransaction := by
  unfold Obligations.ResetTransaction
  exact perform_reset

/-- Settles O56: nothing is valid, open or written after reset, and the test vectors' sizes are inside R6's bounds. -/
theorem resetMeetsInvariant : Obligations.ResetMeetsInvariant := by
  unfold Obligations.ResetMeetsInvariant
  exact ⟨fun c => StateInv.resetWith, StateInv.resetWith (by decide)⟩

/-! ### A completion empties the latch -/

section
variable {s t : State} {w : Word} {r : List Agent} {n : Nat}

/-- A pending word completes or stops with a model fault: an illegal one is reported, and no command is refused. -/
theorem runWord_next_or_fault (w : Word) (s : State) : (∃ t, runWord w s = .next t) ∨ ∃ f, runWord w s = .fault f := by
  cases hdecode : decode w with
  | error d => exact .inl ⟨_, runWord_of_error hdecode s⟩
  | ok i =>
    rw [runWord_of_ok hdecode]
    exact exec_next_or_fault i s

theorem runWord_pending (hrun : runWord w s = .next t) : t.pending = none := by
  obtain ⟨d, -, rfl⟩ | ⟨i, -, hexec⟩ := runWord_next_cases hrun
  · rfl
  · exact exec_pending hexec

/-- Complete (R198) always answers a next state, and leaves nothing pending. -/
theorem complete_total (s : State) : ∃ t, complete s = .next t ∧ t.pending = none := by
  cases hp : s.pending with
  | none => exact ⟨s, complete_of_idle hp, hp⟩
  | some w =>
    obtain ⟨t, hrun⟩ | ⟨f, hrun⟩ := runWord_next_or_fault w s
    · exact ⟨t, complete_of_next hp hrun, runWord_pending hrun⟩
    · exact ⟨s.faultCommand f, complete_of_fault hp hrun, rfl⟩

/-! ### The host moves no turn -/

/-- The schedule is not the host's: no transaction changes the turns or takes a free delay, not even Reset. -/
theorem perform_schedule {x : Txn} (h : perform x s = .next t) : t.turns = s.turns ∧ t.draws = s.draws := by
  obtain ⟨-, w, rfl⟩ | ⟨-, v, rfl⟩ | ⟨-, v, rfl⟩ | ⟨-, v, rfl⟩ | ⟨-, v, rfl⟩ | ⟨-, a, b, -, rfl⟩ | ⟨rd, rfl⟩ | ⟨-, rfl⟩ :=
    perform_next_cases h
  all_goals exact ⟨rfl, rfl⟩

theorem hostMove_schedule (h : hostMove s = .next t) : t.turns = s.turns ∧ t.draws = s.draws := by
  obtain rfl | ⟨p, rfl⟩ | ⟨x, -, ⟨u, hperform, rfl⟩ | ⟨f, -, rfl⟩⟩ := hostMove_next_cases h
  · exact ⟨rfl, rfl⟩
  · exact ⟨rfl, rfl⟩
  · exact perform_schedule (t := u) hperform
  · exact ⟨rfl, rfl⟩

/-- A move of the host (R199) always answers a next state: a fault marks it (R233), and no transaction is refused. -/
theorem hostMove_total (s : State) : ∃ t, hostMove s = .next t := by
  cases hline : s.program[s.hostPos]? with
  | none => exact ⟨s, hostMove_of_end hline⟩
  | some line =>
    cases line with
    | gotoIf m v p => exact ⟨_, hostMove_of_gotoIf hline⟩
    | txn x =>
      cases hperform : perform x s with
      | next t => exact ⟨_, hostMove_of_txn hline hperform⟩
      | fault f => exact ⟨_, hostMove_of_txn_fault hline hperform⟩
      | refused e => exact absurd hperform (perform_ne_refused x s e)

/-! ### Fairness (R262) -/

/-- A run of one step or more depends on its first state through the first step alone. -/
theorem runSteps_succ_congr (h : step s = step t) (k : Nat) : runSteps (k + 1) s = runSteps (k + 1) t := by
  simp only [runSteps, h]

/-- The wait of R262 is over: nothing is pending, or the run has faulted. -/
def WaitOver (s : State) : Prop := s.pending = none ∨ s.faulted ≠ none

/-- Within `n` steps of `s` the wait is over. -/
def WaitEndsWithin (n : Nat) (s : State) : Prop :=
  ∃ (k : Nat) (t : State), k ≤ n ∧ runSteps k s = .next t ∧ WaitOver t

theorem WaitEndsWithin.of_over (h : WaitOver s) : WaitEndsWithin n s := ⟨0, s, n.zero_le, rfl, h⟩

theorem WaitEndsWithin.of_step (hstep : step s = .next t) (h : WaitEndsWithin n t) : WaitEndsWithin (n + 1) s := by
  obtain ⟨k, u, hk, hrun, hover⟩ := h
  exact ⟨k + 1, u, Nat.succ_le_succ hk, (runSteps_succ_of_step hstep k).trans hrun, hover⟩

theorem waitOver_or_waiting (s : State) : WaitOver s ∨ s.faulted = none ∧ ∃ w, s.pending = some w := by
  unfold WaitOver
  cases s.faulted <;> cases s.pending <;> simp

/-- A turn of the engine ends the wait (R198). -/
theorem waitEndsWithin_of_engineTurn (hturns : s.turns = .engine :: r) : WaitEndsWithin (n + 1) s := by
  obtain hover | ⟨hf, -⟩ := waitOver_or_waiting s
  · exact .of_over hover
  · obtain ⟨t, hcomplete, hp⟩ := complete_total { s with turns := r }
    exact .of_step ((step_of_engineTurn hf hturns).trans hcomplete) (.of_over (.inl hp))

/-- Turns put before a schedule that ends the wait lengthen the wait by their number at most, whoever moves at them. -/
theorem waitEndsWithin_of_append {d : Nat}
    (hrest : ∀ u : State, u.turns = r → u.draws = d → WaitEndsWithin n u) (before : List Agent)
    (hturns : s.turns = before ++ r) (hdraws : s.draws = d) : WaitEndsWithin (before.length + n) s := by
  induction before generalizing s with
  | nil => simpa using hrest s hturns hdraws
  | cons a before ih =>
    obtain hover | ⟨hf, -⟩ := waitOver_or_waiting s
    · exact .of_over hover
    rw [List.length_cons, Nat.add_right_comm]
    cases a with
    | engine => exact waitEndsWithin_of_engineTurn hturns
    | host =>
      obtain ⟨t, hmove⟩ := hostMove_total { s with turns := before ++ r }
      obtain ⟨hturns', hdraws'⟩ := hostMove_schedule hmove
      exact .of_step ((step_of_hostTurn hf hturns).trans hmove) (ih hturns' (hdraws'.trans hdraws))

/-- Taking the free delay is no step, so it does not change how long the wait is. -/
theorem WaitEndsWithin.of_scheduled (h : WaitEndsWithin n s.scheduled) : WaitEndsWithin n s := by
  obtain ⟨k, t, hk, hrun, hover⟩ := h
  cases k with
  | zero =>
    cases hrun
    exact .of_over (by simpa [WaitOver] using hover)
  | succ k => exact ⟨k + 1, t, hk, (runSteps_succ_congr (step_scheduled s) k).symm.trans hrun, hover⟩

/-- With the turns used up, the free delay and then the engine's turn end the wait. -/
theorem waitEndsWithin_of_turnsUsedUp (hturns : s.turns = []) :
    WaitEndsWithin (Config.completionDelay s.draws + 1) s := by
  obtain hover | ⟨-, w, hp⟩ := waitOver_or_waiting s
  · exact .of_over hover
  refine .of_scheduled ?_
  rw [scheduled_of_pending hturns hp]
  simpa using waitEndsWithin_of_append (fun u hu _ => waitEndsWithin_of_engineTurn hu)
    (List.replicate (Config.completionDelay s.draws) .host) rfl rfl

end

/-- Settles O9: after the turns that are left comes the free delay, and after it a turn of the engine. -/
theorem pendingCommandCompletes : Obligations.PendingCommandCompletes := by
  unfold Obligations.PendingCommandCompletes
  intro s _
  have hused (u : State) (hturns : u.turns = []) (hdraws : u.draws = s.draws) :
      WaitEndsWithin (Config.completionDelay s.draws + 1) u := hdraws ▸ waitEndsWithin_of_turnsUsedUp hturns
  exact waitEndsWithin_of_append hused s.turns s.turns.append_nil.symm rfl

end Sys2Proof.Machine
end
